-- ==== Sys2Proof/Word.lean ====
section
/-! DEFINITION. The word types of the ports (spec/20_memory.md R66 to R70) and the numeric carrier NUM
(spec/00_scope.md R9): the default carrier, an IEEE 754 binary32 datum held as its bit pattern, so that
`f32` and `enc_f32` of R12 are the identity. The arithmetic of NUM is in Machine/Num.lean. -/

namespace Sys2Proof

/-- A word of the ports CTRL, RSP and LVL, and a frame's count word (R66, R69, R95). -/
abbrev Word := BitVec 32

/-- A 16-bit PCM sample as the frame ports carry it (R95). -/
abbrev Half := BitVec 16

/-- A byte of a byte-serial transport (R70). -/
abbrev Byte := BitVec 8

/-- A value of the numeric carrier: the binary32 datum with these bits (R9, R12). -/
structure NUM where
  bits : Word
deriving DecidableEq, Repr, Inhabited

namespace NUM

/-- NUM zero, the word a cleared buffer holds (R64). -/
def zero : NUM := ⟨0#32⟩

/-- The NUM value 1. -/
def one : NUM := ⟨0x3F800000#32⟩

/-- The exponent field is not all ones: the datum is neither a NaN nor an infinity (R107). -/
def isFinite (x : NUM) : Bool := x.bits.extractLsb' 23 8 != 0xFF#8

end NUM

end Sys2Proof
end

