-- ==== Sys2Proof/Config.lean ====
section
/-! DEFINITION. What an implementation fixes: the free values of the spec, as constants without a body (no proof
can see them), the numeric carrier as the record `Num` of spec/00_scope.md R9, and the record of the parameters
of R6 and R7. The default carrier is in Machine/Num.lean, the parameters' default values in Machine/Params.lean. -/

namespace Sys2Proof

/-! ## Free values -/

/-- `sin` where R10 says nothing of it (log 3). -/
opaque Config.sinBits : Word → Word

/-- `cos`, of which R10 says nothing (log 3). -/
opaque Config.cosBits : Word → Word

/-- `tanh` where R10 says nothing of it (log 3). -/
opaque Config.tanhBits : Word → Word

/-- `pow10` where R10 says nothing of it (log 3). -/
opaque Config.pow10Bits : Word → Word

/-- The bits of the NaN that an operation (its number first) gives on two operands (log 2). -/
opaque Config.nanBits : Nat → Word → Word → Word

/-- The greatest integer not above a value that is not finite: the spec gives none (log 14). -/
opaque Config.floorNonFinite : Word → Int

/-- The nearest integer to a value that is not finite: the spec gives none (log 14). -/
opaque Config.roundNonFinite : Word → Int

/-- ECHO_EXPLICIT_MIX, OPEN in R7: constrained to [0, 1] in Machine/Params.lean (log 4). -/
opaque Config.echoExplicitMixBits : Word

/-- How many commands go ahead of the given frame, while a command and a frame are both ready: any number, so
that every interleaving is possible (R246), but a number, so that the worker's step is eventually taken (R14;
log 10). -/
opaque Config.commandsFirst : Nat → Nat

/-! ## The numeric carrier (R9) -/

/-- The configuration record `Num` of R9 over the carrier `F`: the operations R9 lists and, after them, what
R12 and R64 name besides. Every definition of the datapath takes it, so that binary64 or exact arithmetic can stand
in the place of the default, `Num.binary32` (log 1). -/
structure Num (F : Type) where
  add : F → F → F
  sub : F → F → F
  mul : F → F → F
  div : F → F → F
  sqrt : F → F
  sin : F → F
  cos : F → F
  tanh : F → F
  pow10 : F → F
  floor : F → Int
  ofInt : Int → F
  /-- `round` of R12, with the tie rule ROUND_TIES of R7. -/
  roundToInt : F → Int
  lt : F → F → Bool
  le : F → F → Bool
  pi : F
  /-- NUM zero: the word of a cleared buffer (R64). -/
  zero : F
  /-- The value 1. -/
  one : F
  /-- `−v`. -/
  neg : F → F
  /-- `abs(v)` (R12). -/
  abs : F → F
  /-- The value is a NaN; never, in a carrier that has none. -/
  isNaN : F → Bool
  /-- The value is neither a NaN nor an infinity: what the laws of R10 are asked of. -/
  isFinite : F → Bool
  /-- `f32(w)`: a binary32 datum converted exactly (R12). -/
  f32 : Word → F
  /-- `enc_f32(v)` (R12). -/
  encF32 : F → Word

/-- `clamp(v, lo, hi)` of R12; a NaN passes through (spec/92_eei_decisions.md D35). -/
def Num.clamp {F : Type} (N : Num F) (v lo hi : F) : F := if N.lt v lo then lo else if N.lt hi v then hi else v

/-- `max(a, b)` of R12. -/
def Num.max {F : Type} (N : Num F) (a b : F) : F := if N.lt a b then b else a

/-- `a mod n` of R12 for a NUM `a`: `a − n·floor(a/n)`, evaluated in NUM (log 15). -/
def Num.modInt {F : Type} (N : Num F) (a : F) (n : Int) : F :=
  N.sub a (N.mul (N.ofInt n) (N.ofInt (N.floor (N.div a (N.ofInt n)))))

/-- The NUM nearest to the fraction `n / d`, as a decimal of the spec stands for one (log 5). -/
def Num.ratio {F : Type} (N : Num F) (n d : Int) : F := N.div (N.ofInt n) (N.ofInt d)

/-! ## The laws of the carrier (R10) -/

/-- The value is a zero, of either sign where the carrier has two. -/
def Num.isZero {F : Type} (N : Num F) (v : F) : Bool := N.le v N.zero && N.le N.zero v

/-- Equality up to the sign of zero (R10). -/
def Num.same {F : Type} (N : Num F) (a b : F) : Prop := a = b ∨ (N.isZero a = true ∧ N.isZero b = true)

/-- The laws N1 to N8 that R10 asks of every instantiation, for finite values; N9 holds of every function here. A
product or a 0 that a law names stands for both orders of the product and for a zero of either sign, as R129, R130 and
R191 use the laws, and N7 says of a sample which value it is (log 32). -/
structure Num.Lawful {F : Type} (N : Num F) : Prop where
  /-- 0 is a zero, zeros are finite, so is 1, and no finite value is a NaN: what the predicates mean. -/
  zero_isZero : N.isZero N.zero = true
  finite_of_isZero : ∀ z, N.isZero z = true → N.isFinite z = true
  one_finite : N.isFinite N.one = true
  not_nan_of_finite : ∀ x, N.isFinite x = true → N.isNaN x = false
  /-- N1. -/
  one_mul : ∀ x, N.isFinite x = true → N.mul N.one x = x ∧ N.mul x N.one = x
  /-- N2. -/
  add_zero : ∀ x z, N.isFinite x = true → N.isZero z = true → N.same (N.add x z) x ∧ N.same (N.add z x) x
  /-- N3. -/
  zero_mul : ∀ x z, N.isFinite x = true → N.isZero z = true →
    N.isZero (N.mul z x) = true ∧ N.isZero (N.mul x z) = true
  /-- N4. -/
  sub_self : ∀ x, N.isFinite x = true → N.sub x x = N.zero
  /-- N4 for two zeros. -/
  zero_sub_zero : ∀ z z', N.isZero z = true → N.isZero z' = true → N.isZero (N.sub z z') = true
  /-- N5. -/
  one_sub_zero : ∀ z, N.isZero z = true → N.sub N.one z = N.one ∧ N.add N.one z = N.one
  /-- N6. -/
  div_one : ∀ x, N.isFinite x = true → N.div x N.one = x
  div_self : ∀ x, N.isFinite x = true → N.isZero x = false → N.div x x = N.one
  /-- N7, the integers: `ofInt` gives the value 0 for 0, 1 for 1 and, up to `2^15` in magnitude, one more for one
  more; it orders them as integers and `round` gives them back. -/
  ofInt_zero : N.ofInt 0 = N.zero
  ofInt_one : N.ofInt 1 = N.one
  ofInt_succ : ∀ i : Int, -32768 ≤ i → i < 32768 → N.ofInt (i + 1) = N.add (N.ofInt i) N.one
  ofInt_finite : ∀ i : Int, -32768 ≤ i → i ≤ 32768 → N.isFinite (N.ofInt i) = true
  ofInt_order : ∀ i j : Int, -32768 ≤ i → i ≤ 32768 → -32768 ≤ j → j ≤ 32768 →
    N.lt (N.ofInt i) (N.ofInt j) = decide (i < j) ∧ N.le (N.ofInt i) (N.ofInt j) = decide (i ≤ j)
  round_ofInt : ∀ i : Int, -32768 ≤ i → i ≤ 32768 → N.roundToInt (N.ofInt i) = i
  /-- N7, the quotients: 0 divided by a positive integer is 0, and `ofInt(s)/32768` grows by one part of 32768 for one
  more, so with N6 it is `s` such parts exactly. -/
  zero_div : ∀ n : Int, 0 < n → N.div N.zero (N.ofInt n) = N.zero
  quotient_succ : ∀ i : Int, -32768 ≤ i → i < 32768 →
    N.div (N.ofInt (i + 1)) (N.ofInt 32768) =
      N.add (N.div (N.ofInt i) (N.ofInt 32768)) (N.div N.one (N.ofInt 32768))
  quotient_finite : ∀ i : Int, -32768 ≤ i → i ≤ 32768 → N.isFinite (N.div (N.ofInt i) (N.ofInt 32768)) = true
  quotient_order : ∀ i j : Int, -32768 ≤ i → i ≤ 32768 → -32768 ≤ j → j ≤ 32768 →
    N.lt (N.div (N.ofInt i) (N.ofInt 32768)) (N.div (N.ofInt j) (N.ofInt 32768)) = decide (i < j) ∧
    N.le (N.div (N.ofInt i) (N.ofInt 32768)) (N.div (N.ofInt j) (N.ofInt 32768)) = decide (i ≤ j)
  /-- N7, the products: multiplying the quotient by 32768 gives the integer. -/
  product_exact : ∀ i : Int, -32768 ≤ i → i ≤ 32768 →
    N.mul (N.div (N.ofInt i) (N.ofInt 32768)) (N.ofInt 32768) = N.ofInt i
  /-- N8. -/
  sin_zero : N.sin N.zero = N.zero
  tanh_zero : N.tanh N.zero = N.zero
  sqrt_zero : N.sqrt N.zero = N.zero
  pow10_zero : N.pow10 N.zero = N.one

/-! ## Parameters -/

/-- The twelve entries of one row of the preset table (R201, spec/10_state.md R34). -/
structure PresetRow (F : Type := NUM) where
  ringMix               : F
  ringFrequencyHz       : F
  vibratoDepth          : F
  vibratoRateHz         : F
  distortionAmount      : F
  phaseDistortionAmount : F
  extraReverbWet        : F
  extraDelayMs          : F
  extraDelayMix         : F
  extraDelayFeedback    : F
  bassGainDb            : F
  trebleGainDb          : F
deriving DecidableEq, Repr

/-- The parameters of R6 and R7, with those of spec/93_implementation_defined.md (U3, U8, U9). A bound
that is `none` is unbounded. The carrier is the first parameter of R7. -/
structure Params (F : Type := NUM) extends Num F where
  /-- EQ_BANDS: how many of the five slots of R25 and R100 are bands in use (log 27). -/
  eqBands : Nat
  /-- EQ_Q. -/
  eqQ : F
  /-- EQ_GATE_DB. -/
  eqGateDb : F
  /-- Q_MIN. -/
  qMin : F
  /-- FORMANT_LO_HZ. -/
  formantLoHz : F
  /-- FORMANT_HI_HZ. -/
  formantHiHz : F
  /-- FORMANT_DB_PER_STEP. -/
  formantDbPerStep : F
  /-- FORMANT_MIN. -/
  formantMin : Int
  /-- FORMANT_MAX. -/
  formantMax : Int
  /-- TONE_LO_HZ. -/
  toneLoHz : F
  /-- TONE_HI_HZ. -/
  toneHiHz : F
  /-- TONE_GATE_DB. -/
  toneGateDb : F
  /-- SHELF_SLOPE. -/
  shelfSlope : F
  /-- PITCH_MIN. -/
  pitchMin : F
  /-- PITCH_MAX. -/
  pitchMax : F
  /-- PITCH_DEADBAND. -/
  pitchDeadband : F
  /-- PITCH_SECONDS. -/
  pitchSeconds : Nat
  /-- PITCH_GAP_FRAC, as numerator and denominator. -/
  pitchGapNum : Nat
  pitchGapDen : Nat
  /-- PITCH_GAP_MIN. -/
  pitchGapMin : Nat
  /-- COMB_FB. -/
  combFb : Vector F 3
  /-- COMB_MS, in tenths of a millisecond. -/
  combTenthMs : Vector Nat 3
  /-- COMB_LEN[0..2] as functions of the sample rate; `none` is the default of R174, from COMB_MS. -/
  combLen : Option (Fin 3 → Int → Nat)
  /-- RV_STEP_WHEN_DRY. -/
  rvStepWhenDry : Bool
  /-- ECHO_FB_MAX. -/
  echoFbMax : F
  /-- ECHO_GROW, as numerator and denominator. -/
  echoGrowNum : Nat
  echoGrowDen : Nat
  /-- ECHO_EXPLICIT_MIX. -/
  echoExplicitMix : F
  /-- ECHO_INIT_LEN is this many seconds of samples and one word. -/
  echoInitSeconds : Nat
  /-- ECHO_MAX_LEN. -/
  echoMaxLen : Option Nat
  /-- WARP_HZ. -/
  warpHz : F
  /-- DIST_DRIVE. -/
  distDrive : F
  /-- FULL_SCALE. -/
  fullScale : F
  /-- The divisor of the input conversion and the factor of the output conversion (IN_SCALE, OUT_SCALE). -/
  pcmScale : F
  /-- CLIP_LO. -/
  clipLo : F
  /-- CLIP_HI. -/
  clipHi : F
  /-- VOLUME_MIN. -/
  volumeMin : F
  /-- VOLUME_MAX. -/
  volumeMax : F
  /-- WET_MIN. -/
  wetMin : F
  /-- WET_MAX. -/
  wetMax : F
  /-- CLAMP_ALL_DOMAINS. -/
  clampAllDomains : Bool
  /-- FRAME_MAX. -/
  frameMax : Option Nat
  /-- PRESET_TABLE, row by row in the order of the codes. -/
  presetTable : Vector (PresetRow F) 6

end Sys2Proof
end

