-- ==== Sys2Proof/Machine/Num.lean ====
section
/-! DEFINITION. The default carrier NUM (spec/00_scope.md R9 to R12): IEEE 754 binary32, round to
nearest even, one rounding per operation, no trap and no flag. Results are exact rationals rounded once.
`sin`, `cos`, `tanh`, `pow10` are free functions that keep the laws of R10 (log 1, 2, 3). -/

namespace Sys2Proof

namespace NUM

/-! ## The parts of a datum -/

/-- The sign bit. -/
def sign (x : NUM) : Bool := x.bits.msb

/-- The exponent field. -/
def expField (x : NUM) : Nat := (x.bits.extractLsb' 23 8).toNat

/-- The fraction field. -/
def fracField (x : NUM) : Nat := (x.bits.extractLsb' 0 23).toNat

/-- The datum without its sign, as a number that orders magnitudes. -/
def magnitude (x : NUM) : Nat := (x.bits.extractLsb' 0 31).toNat

/-- The magnitude of an infinity. -/
def infMagnitude : Nat := 0x7F800000

def isNaN (x : NUM) : Bool := infMagnitude < x.magnitude

def isInf (x : NUM) : Bool := x.magnitude == infMagnitude

def isZero (x : NUM) : Bool := x.magnitude == 0

/-- A datum from its sign and its magnitude. -/
def ofMagnitude (s : Bool) (mag : Nat) : NUM := ⟨BitVec.ofBool s ++ BitVec.ofNat 31 mag⟩

def signedZero (s : Bool) : NUM := ofMagnitude s 0

def signedInf (s : Bool) : NUM := ofMagnitude s infMagnitude

/-- A finite datum is `(-1)^sign * significand * 2^exponent`. -/
def significand (x : NUM) : Nat := if x.expField = 0 then x.fracField else x.fracField + 2 ^ 23

def exponent (x : NUM) : Int := if x.expField = 0 then -149 else (x.expField : Int) - 150

/-! ## Rounding -/

/-- The integer nearest to `m / 2^k`, ties to even; `sticky` says that the true value is a little
above `m`. -/
def shiftRound (m k : Nat) (sticky : Bool) : Nat :=
  let q := m / 2 ^ k
  let rem2 := 2 * (m % 2 ^ k)
  let up := 2 ^ k < rem2 || (rem2 == 2 ^ k && (sticky || q % 2 == 1))
  if up then q + 1 else q

/-- The binary32 datum nearest to `(-1)^s * m * 2^e`, ties to even; `sticky` says that the true
magnitude is a little above `m * 2^e`, and then `m` has more than 24 bits. -/
def roundPack (s : Bool) (m : Nat) (e : Int) (sticky : Bool) : NUM :=
  if m = 0 then signedZero s
  else
    let t := max (e + Nat.log2 m - 23) (-149)
    let mant := if t ≤ e then m * 2 ^ (e - t).toNat else shiftRound m (t - e).toNat sticky
    let mag := (t + 149).toNat * 2 ^ 23 + mant
    if infMagnitude ≤ mag then signedInf s else ofMagnitude s mag

/-- Some NaN: which one is free (log 2). The first argument numbers the operation. -/
def nanOf (op : Nat) (a b : NUM) : NUM :=
  let v : NUM := ⟨Config.nanBits op a.bits b.bits⟩
  if v.isNaN then v else ⟨0x7FC00000#32⟩

/-! ## Sign operations -/

/-- `−v`: the sign bit alone changes, of a NaN too (log 2). -/
def neg (x : NUM) : NUM := ⟨x.bits ^^^ 0x80000000#32⟩

/-- `abs(v)` (R12): the sign bit alone is cleared, of a NaN too (log 2). -/
def abs (x : NUM) : NUM := ⟨x.bits &&& 0x7FFFFFFF#32⟩

/-! ## Comparison -/

/-- An integer that orders the data that are no NaN as their values, both zeros being 0. -/
def order (x : NUM) : Int := if x.sign then -(x.magnitude : Int) else x.magnitude

/-- `a < b`; false if either is a NaN. -/
def lt (a b : NUM) : Bool := !a.isNaN && !b.isNaN && decide (a.order < b.order)

/-- `a ≤ b`; false if either is a NaN. -/
def le (a b : NUM) : Bool := !a.isNaN && !b.isNaN && decide (a.order ≤ b.order)

/-! ## Arithmetic -/

/-- The significand at the exponent `e`, with its sign; `e` is at most the exponent. -/
def scaled (x : NUM) (e : Int) : Int :=
  let m : Int := x.significand * 2 ^ (x.exponent - e).toNat
  if x.sign then -m else m

/-- `a + b`. -/
def add (a b : NUM) : NUM :=
  if a.isNaN || b.isNaN then nanOf 0 a b
  else if a.isInf then (if b.isInf && a.sign != b.sign then nanOf 0 a b else a)
  else if b.isInf then b
  else
    let e := min a.exponent b.exponent
    let sum := a.scaled e + b.scaled e
    if sum = 0 then signedZero (a.sign && b.sign) else roundPack (sum < 0) sum.natAbs e false

/-- `a − b`: `a + (−b)` but for a NaN, which is free apart from the one that addition gives (log 2). -/
def sub (a b : NUM) : NUM :=
  if a.isNaN || b.isNaN || (a.isInf && b.isInf && a.sign == b.sign) then nanOf 4 a b else a.add b.neg

/-- `a · b`. -/
def mul (a b : NUM) : NUM :=
  let s := a.sign != b.sign
  if a.isNaN || b.isNaN then nanOf 1 a b
  else if a.isInf || b.isInf then (if a.isZero || b.isZero then nanOf 1 a b else signedInf s)
  else roundPack s (a.significand * b.significand) (a.exponent + b.exponent) false

/-- `a / b`. -/
def div (a b : NUM) : NUM :=
  let s := a.sign != b.sign
  if a.isNaN || b.isNaN then nanOf 2 a b
  else if a.isInf then (if b.isInf then nanOf 2 a b else signedInf s)
  else if b.isInf then signedZero s
  else if b.isZero then (if a.isZero then nanOf 2 a b else signedInf s)
  else
    let n := a.significand * 2 ^ 50
    let d := b.significand
    roundPack s (n / d) (a.exponent - b.exponent - 50) (n % d != 0)

/-- The integer part of the square root of `n`, found bit by bit: `r` is the root so far and the next
`k` bits are still to be tried. -/
def rootBits (n : Nat) : Nat → Nat → Nat
  | 0, r => r
  | k + 1, r =>
    let r' := r + 2 ^ k
    rootBits n k (if r' * r' ≤ n then r' else r)

/-- `sqrt(v)`; the square root of a zero is that zero. -/
def sqrt (x : NUM) : NUM :=
  if x.isNaN then nanOf 3 x x
  else if x.isZero then x
  else if x.sign then nanOf 3 x x
  else if x.isInf then x
  else
    let odd := x.exponent % 2 == 1
    let m := (if odd then 2 * x.significand else x.significand) * 2 ^ 54
    let e := (if odd then x.exponent - 1 else x.exponent) - 54
    let r := rootBits m 40 0
    roundPack false r (e / 2) (r * r != m)

/-! ## Integers -/

/-- `ofInt(i)`: the NUM nearest to an integer. -/
def ofInt (i : Int) : NUM := roundPack (i < 0) i.natAbs 0 false

/-- `floor(v)`: the greatest integer not above a finite value; free for the others (log 14). -/
def floor (x : NUM) : Int :=
  if x.isFinite then
    let m : Int := if x.sign then -(x.significand : Int) else x.significand
    if 0 ≤ x.exponent then m * 2 ^ x.exponent.toNat else m / 2 ^ (-x.exponent).toNat
  else Config.floorNonFinite x.bits

/-- `round(v)`: the nearest integer to a finite value, ties away from zero (R12, ROUND_TIES); free for
the others (log 14). -/
def round (x : NUM) : Int :=
  if x.isFinite then
    let mag :=
      if 0 ≤ x.exponent then x.significand * 2 ^ x.exponent.toNat
      else
        let d := 2 ^ (-x.exponent).toNat
        (2 * x.significand + d) / (2 * d)
    if x.sign then -(mag : Int) else mag
  else Config.roundNonFinite x.bits

/-! ## The free functions (R9, R10) -/

/-- π: the NUM nearest to it. -/
def pi : NUM := ⟨0x40490FDB#32⟩

/-- Keeps a value of `[−1, 1]`, the range of `sin` and `tanh` (spec/46_voice_transform.md R216). -/
def unitBound (v : NUM) : NUM := if v.abs.le one then v else zero

/-- `sin(v)`: 0 at 0 (R10 N8), in `[−1, 1]` for a finite operand (R216), otherwise free (log 3). -/
def sin (x : NUM) : NUM :=
  let v : NUM := ⟨Config.sinBits x.bits⟩
  if x = zero then zero
  else if x.isZero then signedZero v.sign
  else if x.isFinite then unitBound v
  else v

/-- `cos(v)`: free, R10 has no law of it (R9; log 3). -/
def cos (x : NUM) : NUM := ⟨Config.cosBits x.bits⟩

/-- `tanh(v)`: 0 at 0 (R10 N8), in `[−1, 1]` unless the operand is a NaN (R216), otherwise free (log 3). -/
def tanh (x : NUM) : NUM :=
  let v : NUM := ⟨Config.tanhBits x.bits⟩
  if x = zero then zero
  else if x.isZero then signedZero v.sign
  else if x.isNaN then v
  else unitBound v

/-- `pow10(v) = 10^v`: 1 at 0 (R10 N8), otherwise free (log 3). -/
def pow10 (x : NUM) : NUM := if x.isZero then one else ⟨Config.pow10Bits x.bits⟩

end NUM

/-- The default carrier of R7 and R9: IEEE 754 binary32. -/
def Num.binary32 : Num NUM where
  add := NUM.add
  sub := NUM.sub
  mul := NUM.mul
  div := NUM.div
  sqrt := NUM.sqrt
  sin := NUM.sin
  cos := NUM.cos
  tanh := NUM.tanh
  pow10 := NUM.pow10
  floor := NUM.floor
  ofInt := NUM.ofInt
  roundToInt := NUM.round
  lt := NUM.lt
  le := NUM.le
  pi := NUM.pi
  zero := NUM.zero
  one := NUM.one
  neg := NUM.neg
  abs := NUM.abs
  isNaN := NUM.isNaN
  isFinite := NUM.isFinite
  f32 := NUM.mk
  encF32 := NUM.bits

end Sys2Proof
end

