-- ==== Sys2Proof/Syntax.lean ====
section
/-! DEFINITION. The operations of the block: one constructor of `Instr` for each row of
spec/opcode_table.json (spec/30_encoding.md R96), with its operands as the words carry them (R92):
an `I` word is its 32 bits, an `F` word the NUM with those bits, an `S` word the 16-bit sample. -/

namespace Sys2Proof

/-- One slot of APPLY's equaliser list as the payload carries it: P1/P2 and so on (R100). -/
structure EqOperand where
  freq   : Word
  gainDb : NUM
deriving DecidableEq, Repr

/-- The 18 payload words of APPLY (R100), the flag word `B` as its two bits. -/
structure DspParameters where
  eq             : Vector EqOperand 5
  pitchRatio     : NUM
  formantShift   : Word
  reverbEnabled  : Bool
  echoEnabled    : Bool
  reverbWet      : NUM
  echoDelayMs    : Word
  echoFeedback   : NUM
  volume         : NUM
  voicePreset    : Word
deriving DecidableEq, Repr

/-- A frame of port CAP or PLAY: the count word and the 16-bit words after it (R95). -/
structure Frame where
  count   : Word
  samples : List Half
deriving DecidableEq, Repr

/-- The operations with an encoding (R96). `u` is the unit-index field of the command word (R97). -/
inductive Instr where
  /-- START (R231). -/
  | start (ok : Bool) (sr : Word)
  /-- STOP (R233). -/
  | stop
  /-- APPLY (R234). -/
  | apply (p : DspParameters)
  /-- BQ.BYP (R121). -/
  | bqByp (u : BitVec 8)
  /-- BQ.PEAK (R122). -/
  | bqPeak (u : BitVec 8) (freq gainDb q : NUM) (sampleRate : Word)
  /-- BQ.LSH (R123). -/
  | bqLsh (u : BitVec 8) (freq gainDb : NUM) (sampleRate : Word)
  /-- BQ.HSH (R124). -/
  | bqHsh (u : BitVec 8) (freq gainDb : NUM) (sampleRate : Word)
  /-- BQ.PROC (R125). -/
  | bqProc (u : BitVec 8) (x : NUM)
  /-- PS.INIT (R156). -/
  | psInit (sr : Word)
  /-- PS.PROC (R157). -/
  | psProc (x ratio : NUM)
  /-- CB.INIT (R171). -/
  | cbInit (u : BitVec 8) (len : Word) (fb : NUM)
  /-- CB.PROC (R172). -/
  | cbProc (u : BitVec 8) (x : NUM)
  /-- RV.INIT (R173). -/
  | rvInit (sr : Word)
  /-- RV.PROC (R175). -/
  | rvProc (x wet : NUM)
  /-- EC.INIT (R186). -/
  | ecInit (len : Word)
  /-- EC.CFG (R187). -/
  | ecCfg (delaySamples : Word) (mix feedback : NUM)
  /-- EC.PROC (R188). -/
  | ecProc (x : NUM)
  /-- VP.LOAD (R202); `preset` is the 16-bit immediate. -/
  | vpLoad (preset : BitVec 16)
  /-- VM.INIT (R211). -/
  | vmInit (sr : Word)
  /-- VM.PROC (R212). -/
  | vmProc (x : NUM)
  /-- LM.FRAME (R226); the count `n` of the immediate is the length of the list. -/
  | lmFrame (samples : List Half)
  /-- FRAME (R238), taken from port CAP: the count word and its samples. -/
  | frame (n : Word) (samples : List Half)
deriving DecidableEq, Repr

end Sys2Proof
end

