-- ==== Sys2Proof/Machine/State.lean ====
section
/-! DEFINITION. The state of the block (spec/10_state.md), its value after reset (R38, spec/70_reset_and_hazards.md
R290), and the reasons a step can stop. The records take the carrier of R9 as an argument, whose default is
binary32. A field that the spec says holds no value after reset holds the
model's named value (log 6); nothing can read it, because its unit's `init` flag is false. -/

namespace Sys2Proof.Machine

open Sys2Proof

/-! ## Codes -/

/-- RUN (R23): 0 Stopped, 1 Starting, 2 Running. -/
inductive RunState where
  | stopped | starting | running
deriving DecidableEq, Repr

/-- `BQ[u].mode` (R29). -/
inductive BiquadMode where
  | bypass | peaking | lowShelf | highShelf
deriving DecidableEq, Repr

/-- The preset codes 0 to 5 (spec/30_encoding.md R93). -/
inductive Preset where
  | normal | child | funny | robot | deep | alien
deriving DecidableEq, Repr

/-- The status codes of a response (spec/60_exceptions.md R262). -/
inductive Status where
  | ok | fail | errIllegal | errState | errUninit | errRange
deriving DecidableEq, Repr

/-! ## Parameters in the machine -/

/-- One slot of SNAP's equaliser list (R25). -/
structure EqSlot (F : Type := NUM) where
  freq   : Int
  gainDb : F
deriving DecidableEq, Repr

/-- SNAP, the published parameter snapshot (R25). -/
structure Snapshot (F : Type := NUM) where
  eq            : Vector (EqSlot F) 5
  pitchRatio    : F
  formantShift  : Int
  reverbEnabled : Bool
  reverbWet     : F
  echoEnabled   : Bool
  echoDelayMs   : Int
  echoFeedback  : F
  volume        : F
  voicePreset   : Preset
deriving DecidableEq, Repr

/-- ACT, the active parameters (R27). -/
structure Active (F : Type := NUM) where
  pitchRatio : F
  volume     : F
  eqOn       : Bool
  wet        : F
deriving DecidableEq, Repr

/-! ## Buffer spaces (spec/20_memory.md R60) -/

/-- The words of a buffer space that are not zero, by index: indices strictly rising, no zero word
listed. A word in range that is not listed is NUM zero, as R64 fills a fresh space (log 8). -/
abbrev Memory (F : Type := NUM) := List (Nat × F)

/-! ## Units -/

/-- `BQ[u]` (R29). -/
structure Biquad (F : Type := NUM) where
  b0   : F
  b1   : F
  b2   : F
  a1   : F
  a2   : F
  z1   : F
  z2   : F
  mode : BiquadMode
  init : Bool
deriving DecidableEq, Repr

/-- PS, the pitch shifter (R30). -/
structure PitchShifter (F : Type := NUM) where
  size   : Nat
  minGap : Nat
  w      : Nat
  r      : F
  buf    : Memory F
  init   : Bool
deriving DecidableEq, Repr

/-- `CB[k]`, a comb filter (R31). -/
structure Comb (F : Type := NUM) where
  len  : Nat
  fb   : F
  cur  : Nat
  buf  : Memory F
  init : Bool
deriving DecidableEq, Repr

/-- EC, the echo line (R33). -/
structure Echo (F : Type := NUM) where
  len  : Nat
  cur  : Nat
  d    : Nat
  mix  : F
  fb   : F
  buf  : Memory F
  init : Bool
deriving DecidableEq, Repr

/-- PC, the preset configuration (R34). -/
structure PresetConfig (F : Type := NUM) where
  row  : PresetRow F
  init : Bool
deriving DecidableEq, Repr

/-- VM, the voice modulator (R35). -/
structure VoiceModulator (F : Type := NUM) where
  phT  : F
  phR  : F
  phW  : F
  sr   : Int
  init : Bool
deriving DecidableEq, Repr

/-! ## What leaves the block -/

/-- One event on an output port: a response on RSP (spec/30_encoding.md R94), a level word on LVL or a
frame on PLAY (R95). -/
inductive Output where
  | response (status value : Word)
  | level (w : Word)
  | played (f : Frame)
deriving DecidableEq, Repr

/-! ## The state -/

/-- The whole state (R20), and the port queues (spec/20_memory.md R66 to R69; log 9). -/
structure State (F : Type := NUM) where
  /-- RUN (R23). -/
  run  : RunState
  /-- SR (R24). -/
  sr   : Int
  /-- SNAP (R25). -/
  snap : Snapshot F
  /-- PEND (R26). -/
  pend : Bool
  /-- ACT (R27). -/
  act  : Active F
  /-- BQ[0..8] (R29). -/
  bq   : Vector (Biquad F) 9
  /-- PS (R30). -/
  ps   : PitchShifter F
  /-- CB[0..2] (R31). -/
  cb   : Vector (Comb F) 3
  /-- EC (R33). -/
  ec   : Echo F
  /-- PC (R34). -/
  pc   : PresetConfig F
  /-- VM (R35). -/
  vm   : VoiceModulator F
  /-- The words offered on CTRL and not yet taken, oldest first (R66). -/
  ctrl : List Word
  /-- The frames offered on CAP and not yet taken, oldest first (R67); held there while not Running, until the
  collaborator drops them (R244; log 31). -/
  cap  : List Frame
  /-- What was emitted on RSP, LVL and PLAY and not yet accepted, oldest first (R66, R68, R69). -/
  out  : List Output
  /-- How many frames have been taken from CAP: the model's own counter, which numbers the free choices (log 10). -/
  pick : Nat
  /-- How many commands have gone ahead of the frame at the head of CAP, which could have gone too: the model's
  own counter (log 10). -/
  ahead : Nat
  /-- How many of the STOPs on CTRL, the first ones, a frame has been taken past: the model's own (R247; log 28,
  log 30). -/
  late : Nat
deriving DecidableEq, Repr

/-! ## Reset (R38, R290) -/

section

variable {F : Type} (N : Num F)

/-- The neutral snapshot (R25). -/
def Snapshot.neutral : Snapshot F where
  eq := Vector.replicate 5 ⟨0, N.zero⟩
  pitchRatio := N.one
  formantShift := 0
  reverbEnabled := false
  reverbWet := N.zero
  echoEnabled := false
  echoDelayMs := 0
  echoFeedback := N.zero
  volume := N.one
  voicePreset := .normal

/-- ACT without a value (log 6). -/
def Active.none : Active F := ⟨N.zero, N.zero, false, N.zero⟩

/-- A biquad without a value (log 6). -/
def Biquad.none : Biquad F :=
  ⟨N.zero, N.zero, N.zero, N.zero, N.zero, N.zero, N.zero, .bypass, false⟩

/-- The pitch shifter without a value (log 6). -/
def PitchShifter.none : PitchShifter F := ⟨0, 0, 0, N.zero, [], false⟩

/-- A comb without a value (log 6). -/
def Comb.none : Comb F := ⟨0, N.zero, 0, [], false⟩

/-- The echo line without a value (log 6). -/
def Echo.none : Echo F := ⟨0, 0, 0, N.zero, N.zero, [], false⟩

/-- The preset configuration without a value (log 6). -/
def PresetConfig.none : PresetConfig F where
  row := ⟨N.zero, N.zero, N.zero, N.zero, N.zero, N.zero, N.zero, N.zero, N.zero, N.zero, N.zero, N.zero⟩
  init := false

/-- The voice modulator without a value (log 6). -/
def VoiceModulator.none : VoiceModulator F := ⟨N.zero, N.zero, N.zero, 0, false⟩

/-- The machine after reset, over any carrier: Stopped, the neutral snapshot, nothing pending, no unit
initialised, nothing offered and nothing emitted. -/
def State.initial : State F where
  run := .stopped
  sr := 0
  snap := Snapshot.neutral N
  pend := false
  act := Active.none N
  bq := Vector.replicate 9 (Biquad.none N)
  ps := PitchShifter.none N
  cb := Vector.replicate 3 (Comb.none N)
  ec := Echo.none N
  pc := PresetConfig.none N
  vm := VoiceModulator.none N
  ctrl := []
  cap := []
  out := []
  pick := 0
  ahead := 0
  late := 0

end

/-- The machine after reset. -/
def State.reset : State := State.initial Num.binary32

/-! ## Why a step stops -/

/-- The block has no fault of its own (spec/60_exceptions.md R260, R269): these are the model's. -/
inductive Fault where
  /-- An access to a buffer space outside its length: raised by the reads and writes of Machine/Ops.lean. R62
  says no access is outside, and indices are reduced by the length, so this needs a space of length 0,
  which no run reaches. Safe: the model stops. -/
  | bufferIndex
deriving DecidableEq, Repr

/-- Why a step has no meaning. -/
inductive Refusal where
  /-- Raised by exec's arm of an instruction that has no meaning yet. Safe: the model stops. -/
  | notModelled (mnemonic : String)
  /-- Raised by the step for a frame on CAP whose number of samples is not `max(n, 0)`, or exceeds a
  finite FRAME_MAX: outside the spec's input domain (spec/30_encoding.md R95). Safe: the model stops. -/
  | malformedFrame
deriving DecidableEq, Repr

/-- The outcome of an operation or a step. -/
abbrev Result (F : Type := NUM) := Host.Outcome (State F) Fault Refusal

end Sys2Proof.Machine
end

