-- ==== Sys2Proof/Machine/Ops.lean ====
section
/-! DEFINITION. The named operations every meaning is built from: the words of a buffer space
(spec/20_memory.md R60 to R65), the index forms (R61), the response to a command and its refusal
(spec/30_encoding.md R94, spec/60_exceptions.md R262), and the replacement of one unit of an array. -/

namespace Sys2Proof.Machine

open Sys2Proof

variable {F : Type}

/-! ## Buffer words

Each takes the zero of the carrier, which is what an unlisted index reads as (R64). -/

/-- The word at an index: zero where none is listed (R64). -/
def Memory.read (zero : F) : Memory F → Nat → F
  | [], _ => zero
  | (j, x) :: m, i => if j = i then x else Memory.read zero m i

/-- Puts an entry in front, unless its word is what an unlisted index reads as. -/
def Memory.entry [DecidableEq F] (zero : F) (i : Nat) (v : F) (m : Memory F) : Memory F :=
  if v = zero then m else (i, v) :: m

/-- Replaces the word at an index, keeping the canonical form. -/
def Memory.write [DecidableEq F] (zero : F) : Memory F → Nat → F → Memory F
  | [], i, v => Memory.entry zero i v []
  | (j, x) :: m, i, v =>
    if i < j then Memory.entry zero i v ((j, x) :: m)
    else if i = j then Memory.entry zero i v m
    else (j, x) :: Memory.write zero m i v

/-- The canonical form from an index on: indices rising, below the length, and no zero word listed. -/
def Memory.wfFrom [DecidableEq F] (zero : F) (lo len : Nat) : Memory F → Bool
  | [] => true
  | (j, x) :: m => decide (lo ≤ j) && decide (j < len) && decide (x ≠ zero) && Memory.wfFrom zero (j + 1) len m

/-- The canonical form of the words of a buffer space of the given length. -/
def Memory.wf [DecidableEq F] (zero : F) (len : Nat) (m : Memory F) : Bool := Memory.wfFrom zero 0 len m

/-- `BufRead(S, i)` of a space of the given length (R12, R60); outside it, a fault (R62). -/
def bufRead (N : Num F) (len : Nat) (m : Memory F) (i : Nat) : Except Fault F :=
  if i < len then .ok (m.read N.zero i) else .error .bufferIndex

/-- `BufWrite(S, i, v)` of a space of the given length (R12, R60); outside it, a fault (R62). -/
def bufWrite [DecidableEq F] (N : Num F) (len : Nat) (m : Memory F) (i : Nat) (v : F) : Except Fault (Memory F) :=
  if i < len then .ok (m.write N.zero i v) else .error .bufferIndex

/-! ## Index forms (R61) -/

/-- Form (a): the cursor after this access. -/
def cursorNext (len cur : Nat) : Nat := (cur + 1) % len

/-- Form (b), and the anchor of the pitch shifter: `(cur − d) mod len`. -/
def cursorBack (len cur d : Nat) : Nat := (((cur : Int) - d) % (len : Int)).toNat

/-- Form (c): an integer index reduced by the length (R62; log 13). -/
def indexMod (len : Nat) (i : Int) : Nat := (i % (len : Int)).toNat

/-! ## Responses -/

/-- The code of a status (R262). -/
def Status.code : Status → BitVec 8
  | .ok => 0x00#8
  | .fail => 0x01#8
  | .errIllegal => 0x80#8
  | .errState => 0x81#8
  | .errUninit => 0x82#8
  | .errRange => 0x83#8

/-- The status word: the code in bits 31 to 24, zero below (R94). -/
def statusWord (st : Status) : Word := st.code ++ 0#24

/-- Something leaves the block. -/
def State.emit (o : Output) (s : State F) : State F := { s with out := s.out ++ [o] }

/-- The response of a command (R94). -/
def State.respond (st : Status) (value : Word) (s : State F) : State F :=
  s.emit (.response (statusWord st) value)

/-- A refusal: the status and the value word 0, and nothing else changes (R262, R271). It is what the
block has in place of taking an exception. -/
def State.refuse (e : Status) (s : State F) : State F := s.respond e 0#32

/-- The outcome of a command that completes with the value word 0. -/
def complete (s : State F) : Result F := .next (s.respond .ok 0#32)

/-- The outcome of a command that returns a NUM: its value word is `enc_f32(y)` (R94). -/
def completeValue (N : Num F) : Except Fault (State F × F) → Result F
  | .ok (s, y) => .next (s.respond .ok (N.encF32 y))
  | .error f => .fault f

/-! ## One unit of an array -/

/-- `BQ[u] <- b`. -/
def State.setBq (s : State F) (u : Fin 9) (b : Biquad F) : State F := { s with bq := s.bq.set u b }

/-- `CB[k] <- c`. -/
def State.setCb (s : State F) (k : Fin 3) (c : Comb F) : State F := { s with cb := s.cb.set k c }

end Sys2Proof.Machine
end

