-- ==== Sys2Proof/Machine/Flags.lean ====
section
/-! DEFINITION. The conditions that steer an operation. The block has no arithmetic flags
(spec/10_state.md R28); what it has are the run state, the `init` flags and PEND. A command's checks stand
in the order of spec/60_exceptions.md R267 and the first that fails gives the refusal. -/

namespace Sys2Proof.Machine

open Sys2Proof

variable {F : Type}

/-- The status of the first check that does not hold (R267). -/
def firstFailing : List (Bool × Status) → Option Status
  | [] => none
  | (ok, e) :: rest => if ok then firstFailing rest else some e

/-- Refuses with the first failing check, or goes on (R262, R267). -/
def State.guarded (s : State F) (checks : List (Bool × Status)) (act : Result F) : Result F :=
  match firstFailing checks with
  | some e => .next (s.refuse e)
  | none => act

/-- The `F` operands are finite (R263 (e)): the decoder has already refused the others. -/
def finiteCheck (xs : List NUM) : Bool × Status := (xs.all NUM.isFinite, .errIllegal)

/-- The command is admitted in Stopped only (R266). -/
def stoppedCheck (s : State F) : Bool × Status := (decide (s.run = .stopped), .errState)

/-- An operand lies in the range the operation needs (R264). -/
def rangeCheck (ok : Bool) : Bool × Status := (ok, .errRange)

/-- A unit is initialised (R265). -/
def initCheck (init : Bool) : Bool × Status := (init, .errUninit)

/-- Every comb is initialised (R265, RV.PROC). -/
def combsInit (cb : Vector (Comb F) 3) : Bool := cb.all Comb.init

/-- Every unit is initialised, as a successful START leaves them (R37). -/
def State.allInit (s : State F) : Bool :=
  s.bq.all Biquad.init && s.ps.init && combsInit s.cb && s.ec.init && s.pc.init && s.vm.init

end Sys2Proof.Machine
end

