-- ==== Sys2Proof/Machine/Params.lean ====
section
/-! DEFINITION. The values the spec gives the parameters: spec/00_scope.md R6 and R7, the preset table of
spec/45_voice_preset.md R201 and the treatments of spec/93_implementation_defined.md, over any carrier. A decimal
stands here as the fraction it is, and means the NUM nearest to it (log 5). -/

namespace Sys2Proof

variable {F : Type}

/-! ## The preset table (R201), columns in the order of the record -/

/-- The Normal row. -/
def PresetRow.normal (N : Num F) : PresetRow F :=
  ⟨N.zero, N.zero, N.zero, N.zero, N.zero, N.zero, N.zero, N.zero, N.zero, N.zero, N.zero, N.zero⟩

/-- The Child row. -/
def PresetRow.child (N : Num F) : PresetRow F :=
  ⟨N.zero, N.zero, N.ratio 2 100, N.ofInt 5, N.zero, N.zero, N.ratio 2 10, N.zero, N.zero, N.zero, N.ofInt (-2),
    N.ofInt 3⟩

/-- The Funny row. -/
def PresetRow.funny (N : Num F) : PresetRow F :=
  ⟨N.ratio 1 10, N.ofInt 120, N.ratio 6 100, N.ratio 65 10, N.zero, N.zero, N.zero, N.ofInt 90, N.ratio 25 100,
    N.ratio 2 10, N.zero, N.ratio 15 10⟩

/-- The Robot row. -/
def PresetRow.robot (N : Num F) : PresetRow F :=
  ⟨N.ratio 65 100, N.ofInt 55, N.zero, N.zero, N.ratio 6 10, N.zero, N.ratio 35 100, N.ofInt 210, N.ratio 35 100,
    N.ratio 45 100, N.ofInt 2, N.zero⟩

/-- The Deep row. -/
def PresetRow.deep (N : Num F) : PresetRow F :=
  ⟨N.zero, N.zero, N.zero, N.zero, N.zero, N.zero, N.ratio 12 100, N.zero, N.zero, N.zero, N.ofInt 5,
    N.ofInt (-4)⟩

/-- The Alien row. -/
def PresetRow.alien (N : Num F) : PresetRow F :=
  ⟨N.ratio 35 100, N.ofInt 420, N.zero, N.zero, N.zero, N.ratio 7 10, N.ratio 25 100, N.ofInt 180, N.ratio 3 10,
    N.ratio 3 10, N.zero, N.ofInt 2⟩

/-! ## The parameters -/

/-- The parameters of the tables of R6 and R7 over the carrier `N`; ECHO_EXPLICIT_MIX, which is OPEN, is given. -/
def Params.over (N : Num F) (explicitMix : F) : Params F where
  toNum := N
  eqBands := 5
  eqQ := N.one
  eqGateDb := N.ratio 1 100
  qMin := N.ratio 1 10
  formantLoHz := N.ofInt 250
  formantHiHz := N.ofInt 2500
  formantDbPerStep := N.ratio 6 10
  formantMin := -12
  formantMax := 12
  toneLoHz := N.ofInt 180
  toneHiHz := N.ofInt 3200
  toneGateDb := N.ratio 1 10
  shelfSlope := N.one
  pitchMin := N.ratio 1 2
  pitchMax := N.ofInt 2
  pitchDeadband := N.ratio 2 100
  pitchSeconds := 2
  pitchGapNum := 2
  pitchGapDen := 5
  pitchGapMin := 64
  combFb := #v[N.ratio 78 100, N.ratio 75 100, N.ratio 70 100]
  combTenthMs := #v[297, 371, 411]
  combLen := none
  rvStepWhenDry := false
  echoFbMax := N.ratio 95 100
  echoGrowNum := 3
  echoGrowDen := 2
  echoExplicitMix := explicitMix
  echoInitSeconds := 2
  echoMaxLen := none
  warpHz := N.ratio 4 10
  distDrive := N.ofInt 6
  fullScale := N.ofInt 32768
  pcmScale := N.ofInt 32768
  clipLo := N.ofInt (-1)
  clipHi := N.one
  volumeMin := N.zero
  volumeMax := N.one
  wetMin := N.zero
  wetMax := N.one
  clampAllDomains := true
  frameMax := none
  presetTable := #v[PresetRow.normal N, PresetRow.child N, PresetRow.funny N, PresetRow.robot N, PresetRow.deep N,
    PresetRow.alien N]

/-- ECHO_EXPLICIT_MIX: OPEN, a NUM in `[0, 1]` (spec/92_eei_decisions.md D17; log 4). -/
def echoExplicitMix : NUM :=
  let v : NUM := ⟨Config.echoExplicitMixBits⟩
  if NUM.zero.le v && v.le NUM.one then v else NUM.zero

/-- The parameters at the spec's values, over binary32. -/
def theParams : Params := Params.over Num.binary32 echoExplicitMix

end Sys2Proof
end

