-- ==== Sys2Proof/Machine/Operands.lean ====
section
/-! DEFINITION. Operand forms: how a meaning reads its operand words (spec/30_encoding.md R92, R93, R97,
R104), the clamping of APPLY (spec/48_stream_processor.md R235), and the conversions between PCM and NUM
(R242 S0 and S9, R243). An `F` operand enters the datapath through `f32` (R92). -/

namespace Sys2Proof.Machine

open Sys2Proof

variable {F : Type}

/-! ## Integers -/

/-- `i32(w)` (R12): an `I` word. -/
def i32 (w : Word) : Int := w.toInt

/-- `i16(h)` (R12): a PCM sample. -/
def i16 (h : Half) : Int := h.toInt

/-- `clamp` on integers (R12). -/
def clampInt (v lo hi : Int) : Int := if v < lo then lo else if hi < v then hi else v

/-- `sat16(q)` (R12). -/
def sat16 (q : Int) : Int := clampInt q (-32768) 32767

/-! ## Unit indices (R97) -/

/-- The biquad instance of a unit field; the range check of R264 stands before its use. -/
def biquadIndex (u : BitVec 8) : Fin 9 := if h : u.toNat < 9 then ⟨u.toNat, h⟩ else 0

/-- The comb of a unit field; the range check of R264 stands before its use. -/
def combIndex (u : BitVec 8) : Fin 3 := if h : u.toNat < 3 then ⟨u.toNat, h⟩ else 0

/-! ## Presets (R93) -/

/-- The code of a preset. -/
def Preset.code : Preset → Fin 6
  | .normal => 0
  | .child => 1
  | .funny => 2
  | .robot => 3
  | .deep => 4
  | .alien => 5

/-- The preset of a code; every other value selects Normal. -/
def Preset.ofCode (c : Int) : Preset :=
  if c = 1 then .child
  else if c = 2 then .funny
  else if c = 3 then .robot
  else if c = 4 then .deep
  else if c = 5 then .alien
  else .normal

/-- The row of the preset table (R201). -/
def presetRow (p : Params F) (v : Preset) : PresetRow F := p.presetTable.get v.code

/-! ## CLAMPED (R235) -/

/-- One slot of the list: stored as given. -/
def eqSlotOf (N : Num F) (e : EqOperand) : EqSlot F := ⟨i32 e.freq, N.f32 e.gainDb.bits⟩

/-- `CLAMPED(p)`: every field with a documented domain is clamped. Without CLAMP_ALL_DOMAINS only pitch,
volume and feedback are (spec/93_implementation_defined.md U9). -/
def clamped (p : Params F) (a : DspParameters) : Snapshot F where
  eq := a.eq.map (eqSlotOf p.toNum)
  pitchRatio := p.clamp (p.f32 a.pitchRatio.bits) p.pitchMin p.pitchMax
  formantShift :=
    if p.clampAllDomains then clampInt (i32 a.formantShift) p.formantMin p.formantMax else i32 a.formantShift
  reverbEnabled := a.reverbEnabled
  reverbWet :=
    if p.clampAllDomains then p.clamp (p.f32 a.reverbWet.bits) p.wetMin p.wetMax else p.f32 a.reverbWet.bits
  echoEnabled := a.echoEnabled
  echoDelayMs := if p.clampAllDomains then max (i32 a.echoDelayMs) 0 else i32 a.echoDelayMs
  echoFeedback := p.clamp (p.f32 a.echoFeedback.bits) p.zero p.echoFbMax
  volume := p.clamp (p.f32 a.volume.bits) p.volumeMin p.volumeMax
  voicePreset := Preset.ofCode (i32 a.voicePreset)

/-! ## PCM and NUM -/

/-- S0 of R242: `ofInt(s) / 32768`. -/
def pcmIn (p : Params F) (s : Half) : F := p.div (p.ofInt (i16 s)) p.pcmScale

/-- S9 of R242: a NaN gives 0, otherwise `sat16(round(v · 32768))` (R243). -/
def pcmOut (p : Params F) (v : F) : Half :=
  if p.isNaN v then 0#16 else BitVec.ofInt 16 (sat16 (p.roundToInt (p.mul v p.pcmScale)))

end Sys2Proof.Machine
end

