-- ==== Sys2Proof/Machine/EchoLine.lean ====
section
/-! DEFINITION. The feedback echo line (spec/44_echo.md). -/

namespace Sys2Proof.Machine

open Sys2Proof

variable {F : Type}

/-- EC.INIT on the record (R186). -/
def Echo.created (N : Num F) (len : Nat) : Echo F :=
  { len := len, cur := 0, d := 0, mix := N.zero, fb := N.zero, buf := [], init := true }

/-- The delay that EC.CFG takes: at least 0, and below a finite ECHO_MAX_LEN (R187). -/
def echoDelay (p : Params F) (delaySamples : Int) : Nat :=
  match p.echoMaxLen with
  | none => delaySamples.toNat
  | some m => min delaySamples.toNat (m - 1)

/-- The length a growth for the delay `de` gives (R187). -/
def echoGrown (p : Params F) (de : Nat) : Nat :=
  let newLen := max (p.echoGrowNum * de / p.echoGrowDen) (de + 1)
  match p.echoMaxLen with
  | none => newLen
  | some m => min newLen m

/-- EC.CFG on the record (R187). -/
def Echo.configured (p : Params F) (ec : Echo F) (delaySamples : Int) (mix feedback : F) : Echo F :=
  let de := echoDelay p delaySamples
  let room := if ec.len ≤ de then { ec with len := echoGrown p de, buf := [], cur := 0 } else ec
  { room with d := de, mix := p.clamp mix p.wetMin p.wetMax, fb := p.clamp feedback p.zero p.echoFbMax }

/-- EC.PROC on the record: the line after one sample and its output (R188). -/
def Echo.process [DecidableEq F] (N : Num F) (ec : Echo F) (x : F) : Except Fault (Echo F × F) :=
  match bufRead N ec.len ec.buf (cursorBack ec.len ec.cur ec.d) with
  | .error f => .error f
  | .ok dl =>
    match bufWrite N ec.len ec.buf ec.cur (N.add x (N.mul dl ec.fb)) with
    | .error f => .error f
    | .ok buf =>
      .ok ({ ec with buf := buf, cur := cursorNext ec.len ec.cur },
        N.add (N.mul x (N.sub N.one ec.mix)) (N.mul dl ec.mix))

/-- EC.PROC on the state. -/
def State.echo [DecidableEq F] (N : Num F) (s : State F) (x : F) : Except Fault (State F × F) :=
  match s.ec.process N x with
  | .ok (ec, y) => .ok ({ s with ec := ec }, y)
  | .error f => .error f

/-- The delay of the effective parameters, in samples (R189). -/
def effectiveDelay (N : Num F) (snap : Snapshot F) (row : PresetRow F) (sr : Int) : Int :=
  let eD := if snap.echoEnabled then N.ofInt snap.echoDelayMs else N.zero
  let delayMs := N.max eD row.extraDelayMs
  N.roundToInt (N.mul (N.div delayMs (N.ofInt 1000)) (N.ofInt sr))

/-- The mix of the effective parameters, before EC.CFG clamps it (R189). -/
def effectiveMix (p : Params F) (snap : Snapshot F) (row : PresetRow F) : F :=
  p.add (if snap.echoEnabled then p.echoExplicitMix else p.zero) row.extraDelayMix

/-- The feedback of the effective parameters, before EC.CFG clamps it (R189). -/
def effectiveFeedback (N : Num F) (snap : Snapshot F) (row : PresetRow F) : F :=
  N.add (if snap.echoEnabled then snap.echoFeedback else N.zero) row.extraDelayFeedback

/-- The echo part of DERIVE (R189). -/
def derivedEcho (p : Params F) (ec : Echo F) (snap : Snapshot F) (row : PresetRow F) (sr : Int) : Echo F :=
  ec.configured p (effectiveDelay p.toNum snap row sr) (effectiveMix p snap row)
    (effectiveFeedback p.toNum snap row)

/-- ECHO_INIT_LEN (R7, R186). -/
def echoInitLen (p : Params F) (sr : Int) : Nat := p.echoInitSeconds * sr.toNat + 1

/-- EC.INIT (R186). -/
def execEcInitWith (p : Params F) (len : Word) (s : State F) : Result F :=
  s.guarded
    [stoppedCheck s,
      rangeCheck (decide (0 < i32 len) && p.echoMaxLen.all (fun m => decide (i32 len ≤ m)))]
    (complete { s with ec := Echo.created p.toNum (i32 len).toNat })

/-- EC.INIT (R186) at the spec's parameters. -/
def execEcInit (len : Word) (s : State) : Result := execEcInitWith theParams len s

/-- EC.CFG (R187). -/
def execEcCfgWith (p : Params F) (delaySamples : Word) (mix feedback : NUM) (s : State F) : Result F :=
  s.guarded [finiteCheck [mix, feedback], stoppedCheck s, initCheck s.ec.init]
    (complete { s with ec := s.ec.configured p (i32 delaySamples) (p.f32 mix.bits) (p.f32 feedback.bits) })

/-- EC.CFG (R187) at the spec's parameters. -/
def execEcCfg (delaySamples : Word) (mix feedback : NUM) (s : State) : Result :=
  execEcCfgWith theParams delaySamples mix feedback s

/-- EC.PROC (R188). -/
def execEcProcWith [DecidableEq F] (p : Params F) (x : NUM) (s : State F) : Result F :=
  s.guarded [finiteCheck [x], stoppedCheck s, initCheck s.ec.init]
    (completeValue p.toNum (s.echo p.toNum (p.f32 x.bits)))

/-- EC.PROC (R188) at the spec's parameters. -/
def execEcProc (x : NUM) (s : State) : Result := execEcProcWith theParams x s

end Sys2Proof.Machine
end

