-- ==== Sys2Proof/Machine/Biquad.lean ====
section
/-! DEFINITION. The IIR biquad section (spec/40_biquad.md): the four designs, one sample, and the five
commands. Formulas are evaluated in NUM in the order the rules write them (spec/00_scope.md R11). A meaning
`exec…With` takes the parameters, as spec/00_scope.md R6 asks; `exec…` is that meaning at the spec's values. -/

namespace Sys2Proof.Machine

open Sys2Proof

variable {F : Type}

/-- The five coefficients with the memory cleared (INV-BQ, spec/10_state.md R29). -/
def Biquad.loaded (N : Num F) (b0 b1 b2 a1 a2 : F) (mode : BiquadMode) : Biquad F :=
  ⟨b0, b1, b2, a1, a2, N.zero, N.zero, mode, true⟩

/-- The bypass design (R121). -/
def Biquad.bypassed (N : Num F) : Biquad F := Biquad.loaded N N.one N.zero N.zero N.zero N.zero .bypass

/-- Normalisation by `ra0`: five divisions (R126). -/
def Biquad.normalised (N : Num F) (rb0 rb1 rb2 ra0 ra1 ra2 : F) (mode : BiquadMode) : Biquad F :=
  Biquad.loaded N (N.div rb0 ra0) (N.div rb1 ra0) (N.div rb2 ra0) (N.div ra1 ra0) (N.div ra2 ra0) mode

/-- `((2·π)·freq)/ofInt(sampleRate)` (R126). -/
def angular (N : Num F) (freq : F) (sampleRate : Int) : F :=
  N.div (N.mul (N.mul (N.ofInt 2) N.pi) freq) (N.ofInt sampleRate)

/-- `pow10(gainDb/40)` (R126). -/
def gainFactor (N : Num F) (gainDb : F) : F := N.pow10 (N.div gainDb (N.ofInt 40))

/-- Bypass is forced (R127). -/
def forcesBypass (N : Num F) (freq : F) (sampleRate : Int) : Bool := N.le freq N.zero || decide (sampleRate ≤ 0)

/-- The peaking design (R122). -/
def Biquad.peaking (p : Params F) (freq gainDb q : F) (sampleRate : Int) : Biquad F :=
  let N := p.toNum
  if forcesBypass N freq sampleRate then Biquad.bypassed N
  else
    let qe := N.max q p.qMin
    let w := angular N freq sampleRate
    let a := gainFactor N gainDb
    let alpha := N.div (N.sin w) (N.mul (N.ofInt 2) qe)
    let c := N.cos w
    let rb0 := N.add N.one (N.mul alpha a)
    let rb1 := N.mul (N.ofInt (-2)) c
    let rb2 := N.sub N.one (N.mul alpha a)
    let ra0 := N.add N.one (N.div alpha a)
    let ra1 := N.mul (N.ofInt (-2)) c
    let ra2 := N.sub N.one (N.div alpha a)
    Biquad.normalised N rb0 rb1 rb2 ra0 ra1 ra2 .peaking

/-- The shelf's slope is 1, as a value. -/
def slopeIsOne (p : Params F) : Bool := p.le p.shelfSlope p.one && p.le p.one p.shelfSlope

/-- The radicand of the shelf's `alpha`: 2 for slope 1, the general formula otherwise (R128). -/
def shelfRadicand (p : Params F) (a : F) : F :=
  if slopeIsOne p then p.ofInt 2
  else p.add (p.mul (p.add a (p.div p.one a)) (p.sub (p.div p.one p.shelfSlope) p.one)) (p.ofInt 2)

/-- `k = 2·sqrt(A)·alpha` with `alpha = sin(w)/2 · sqrt(…)` (R123). -/
def shelfK (p : Params F) (w a : F) : F :=
  let alpha := p.mul (p.div (p.sin w) (p.ofInt 2)) (p.sqrt (shelfRadicand p a))
  p.mul (p.mul (p.ofInt 2) (p.sqrt a)) alpha

/-- The low-shelf design (R123). -/
def Biquad.lowShelf (p : Params F) (freq gainDb : F) (sampleRate : Int) : Biquad F :=
  let N := p.toNum
  if forcesBypass N freq sampleRate then Biquad.bypassed N
  else
    let w := angular N freq sampleRate
    let a := gainFactor N gainDb
    let c := N.cos w
    let k := shelfK p w a
    let ap := N.add a N.one
    let am := N.sub a N.one
    let rb0 := N.mul a (N.add (N.sub ap (N.mul am c)) k)
    let rb1 := N.mul (N.mul (N.ofInt 2) a) (N.sub am (N.mul ap c))
    let rb2 := N.mul a (N.sub (N.sub ap (N.mul am c)) k)
    let ra0 := N.add (N.add ap (N.mul am c)) k
    let ra1 := N.mul (N.ofInt (-2)) (N.add am (N.mul ap c))
    let ra2 := N.sub (N.add ap (N.mul am c)) k
    Biquad.normalised N rb0 rb1 rb2 ra0 ra1 ra2 .lowShelf

/-- The high-shelf design (R124). -/
def Biquad.highShelf (p : Params F) (freq gainDb : F) (sampleRate : Int) : Biquad F :=
  let N := p.toNum
  if forcesBypass N freq sampleRate then Biquad.bypassed N
  else
    let w := angular N freq sampleRate
    let a := gainFactor N gainDb
    let c := N.cos w
    let k := shelfK p w a
    let ap := N.add a N.one
    let am := N.sub a N.one
    let rb0 := N.mul a (N.add (N.add ap (N.mul am c)) k)
    let rb1 := N.mul (N.mul (N.ofInt (-2)) a) (N.add am (N.mul ap c))
    let rb2 := N.mul a (N.sub (N.add ap (N.mul am c)) k)
    let ra0 := N.add (N.sub ap (N.mul am c)) k
    let ra1 := N.mul (N.ofInt 2) (N.sub am (N.mul ap c))
    let ra2 := N.sub (N.sub ap (N.mul am c)) k
    Biquad.normalised N rb0 rb1 rb2 ra0 ra1 ra2 .highShelf

/-- One sample: the section after it and its output (R125). -/
def Biquad.process (N : Num F) (b : Biquad F) (x : F) : Biquad F × F :=
  let y := N.add (N.mul b.b0 x) b.z1
  let nz1 := N.add (N.sub (N.mul b.b1 x) (N.mul b.a1 y)) b.z2
  let nz2 := N.sub (N.mul b.b2 x) (N.mul b.a2 y)
  ({ b with z1 := nz1, z2 := nz2 }, y)

/-- One sample through instance `u` of the state. -/
def State.filter (N : Num F) (s : State F) (u : Fin 9) (x : F) : State F × F :=
  let r := (s.bq.get u).process N x
  (s.setBq u r.1, r.2)

/-- The checks of the four `set` commands (R268). -/
def biquadSetChecks (s : State F) (u : BitVec 8) (fs : List NUM) : List (Bool × Status) :=
  [finiteCheck fs, stoppedCheck s, rangeCheck (decide (u.toNat < 9))]

/-- BQ.BYP (R121). -/
def execBqBypWith (p : Params F) (u : BitVec 8) (s : State F) : Result F :=
  s.guarded (biquadSetChecks s u []) (complete (s.setBq (biquadIndex u) (Biquad.bypassed p.toNum)))

/-- BQ.BYP (R121) at the spec's parameters. -/
def execBqByp (u : BitVec 8) (s : State) : Result := execBqBypWith theParams u s

/-- BQ.PEAK (R122). -/
def execBqPeakWith (p : Params F) (u : BitVec 8) (freq gainDb q : NUM) (sampleRate : Word) (s : State F) : Result F :=
  s.guarded (biquadSetChecks s u [freq, gainDb, q])
    (complete (s.setBq (biquadIndex u)
      (Biquad.peaking p (p.f32 freq.bits) (p.f32 gainDb.bits) (p.f32 q.bits) (i32 sampleRate))))

/-- BQ.PEAK (R122) at the spec's parameters. -/
def execBqPeak (u : BitVec 8) (freq gainDb q : NUM) (sampleRate : Word) (s : State) : Result :=
  execBqPeakWith theParams u freq gainDb q sampleRate s

/-- BQ.LSH (R123). -/
def execBqLshWith (p : Params F) (u : BitVec 8) (freq gainDb : NUM) (sampleRate : Word) (s : State F) : Result F :=
  s.guarded (biquadSetChecks s u [freq, gainDb])
    (complete (s.setBq (biquadIndex u) (Biquad.lowShelf p (p.f32 freq.bits) (p.f32 gainDb.bits) (i32 sampleRate))))

/-- BQ.LSH (R123) at the spec's parameters. -/
def execBqLsh (u : BitVec 8) (freq gainDb : NUM) (sampleRate : Word) (s : State) : Result :=
  execBqLshWith theParams u freq gainDb sampleRate s

/-- BQ.HSH (R124). -/
def execBqHshWith (p : Params F) (u : BitVec 8) (freq gainDb : NUM) (sampleRate : Word) (s : State F) : Result F :=
  s.guarded (biquadSetChecks s u [freq, gainDb])
    (complete (s.setBq (biquadIndex u) (Biquad.highShelf p (p.f32 freq.bits) (p.f32 gainDb.bits) (i32 sampleRate))))

/-- BQ.HSH (R124) at the spec's parameters. -/
def execBqHsh (u : BitVec 8) (freq gainDb : NUM) (sampleRate : Word) (s : State) : Result :=
  execBqHshWith theParams u freq gainDb sampleRate s

/-- BQ.PROC (R125). -/
def execBqProcWith (p : Params F) (u : BitVec 8) (x : NUM) (s : State F) : Result F :=
  s.guarded
    [finiteCheck [x], stoppedCheck s, rangeCheck (decide (u.toNat < 9)), initCheck (s.bq.get (biquadIndex u)).init]
    (completeValue p.toNum (.ok (s.filter p.toNum (biquadIndex u) (p.f32 x.bits))))

/-- BQ.PROC (R125) at the spec's parameters. -/
def execBqProc (u : BitVec 8) (x : NUM) (s : State) : Result := execBqProcWith theParams u x s

end Sys2Proof.Machine
end

