-- ==== Sys2Proof/Machine/FilterBank.lean ====
section
/-! DEFINITION. The filter bank (spec/41_filter_bank.md): how DERIVE configures the nine biquads and how
SAMPLE runs them. EQ_BANDS of the five equaliser slots are bands in use; a slot beyond them is bypassed and not
run (log 27). -/

namespace Sys2Proof.Machine

open Sys2Proof

variable {F : Type}

/-- The band is active (R141): neither its gain is below the gate nor its frequency at most 0. -/
def eqActive (p : Params F) (e : EqSlot F) : Bool :=
  !(p.lt (p.abs e.gainDb) p.eqGateDb || decide (e.freq ≤ 0))

/-- The biquad of one equaliser band (R141). -/
def eqBand (p : Params F) (e : EqSlot F) (sr : Int) : Biquad F :=
  if eqActive p e then Biquad.peaking p (p.ofInt e.freq) e.gainDb p.eqQ sr else Biquad.bypassed p.toNum

/-- The biquad of equaliser slot `k`: that of a band in use, otherwise a bypass. -/
def eqSlotBand (p : Params F) (snap : Snapshot F) (sr : Int) (k : Fin 5) : Biquad F :=
  if k.val < p.eqBands then eqBand p (snap.eq.get k) sr else Biquad.bypassed p.toNum

/-- FLO, the formant low shelf (R143). -/
def formantLow (p : Params F) (shift sr : Int) : Biquad F :=
  if 0 < shift then Biquad.lowShelf p p.formantLoHz (p.mul (p.ofInt shift) p.formantDbPerStep) sr
  else Biquad.bypassed p.toNum

/-- FHI, the formant high shelf (R143). -/
def formantHigh (p : Params F) (shift sr : Int) : Biquad F :=
  if shift < 0 then
    Biquad.highShelf p p.formantHiHz (p.neg (p.mul (p.ofInt (shift.natAbs : Int)) p.formantDbPerStep)) sr
  else Biquad.bypassed p.toNum

/-- TLO, the voice-tone bass shelf (R145). -/
def toneLow (p : Params F) (row : PresetRow F) (sr : Int) : Biquad F :=
  if p.lt p.toneGateDb (p.abs row.bassGainDb) then Biquad.lowShelf p p.toneLoHz row.bassGainDb sr
  else Biquad.bypassed p.toNum

/-- THI, the voice-tone treble shelf (R145). -/
def toneHigh (p : Params F) (row : PresetRow F) (sr : Int) : Biquad F :=
  if p.lt p.toneGateDb (p.abs row.trebleGainDb) then Biquad.highShelf p p.toneHiHz row.trebleGainDb sr
  else Biquad.bypassed p.toNum

/-- All nine instances, each configured anew with its memory cleared (R147). -/
def derivedBank (p : Params F) (snap : Snapshot F) (row : PresetRow F) (sr : Int) : Vector (Biquad F) 9 :=
  #v[eqSlotBand p snap sr 0, eqSlotBand p snap sr 1, eqSlotBand p snap sr 2, eqSlotBand p snap sr 3,
    eqSlotBand p snap sr 4, formantLow p snap.formantShift sr, formantHigh p snap.formantShift sr,
    toneLow p row sr, toneHigh p row sr]

/-- `ACT.eqOn` (R141). -/
def derivedEqOn (p : Params F) (snap : Snapshot F) : Bool := (snap.eq.toList.take p.eqBands).any (eqActive p)

/-- One sample through several instances in order. -/
def State.filters (N : Num F) : State F → List (Fin 9) → F → State F × F
  | s, [], v => (s, v)
  | s, u :: us, v => (s.filter N u v).1.filters N us (s.filter N u v).2

/-- The instances of the equaliser's bands, in the order of R142. -/
def eqInstances (p : Params F) : List (Fin 9) := [0, 1, 2, 3, 4].take p.eqBands

/-- S1: the equaliser, skipped when no band is active (R142). -/
def State.eqStage (p : Params F) (s : State F) (v : F) : State F × F :=
  if s.act.eqOn then s.filters p.toNum (eqInstances p) v else (s, v)

/-- S2: the formant shelves, low first (R144). -/
def State.formantStage (N : Num F) (s : State F) (v : F) : State F × F := s.filters N [5, 6] v

/-- The tone shelves, bass first (R146). -/
def State.toneStage (N : Num F) (s : State F) (v : F) : State F × F := s.filters N [7, 8] v

end Sys2Proof.Machine
end

