-- ==== Sys2Proof/Machine/Meter.lean ====
section
/-! DEFINITION. The level meter (spec/47_level_meter.md). It has no state. -/

namespace Sys2Proof.Machine

open Sys2Proof

variable {F : Type}

/-- The sum of squares, an exact integer (R226). -/
def sumSquares (samples : List Half) : Nat := (samples.map (fun h => (i16 h).natAbs ^ 2)).sum

/-- `LEVEL(s, n)` (R226). -/
def level (p : Params F) (samples : List Half) (n : Int) : F :=
  let mean := p.div (p.ofInt (sumSquares samples)) (p.ofInt n)
  p.clamp (p.div (p.sqrt mean) p.fullScale) p.zero p.one

/-- LM.FRAME (R226). -/
def execLmFrameWith (p : Params F) (samples : List Half) (s : State F) : Result F :=
  s.guarded [stoppedCheck s, rangeCheck (decide (0 < samples.length))]
    (completeValue p.toNum (.ok (s, level p samples samples.length)))

/-- LM.FRAME (R226) at the spec's parameters. -/
def execLmFrame (samples : List Half) (s : State) : Result := execLmFrameWith theParams samples s

end Sys2Proof.Machine
end

