-- ==== Sys2Proof/Machine/Pitch.lean ====
section
/-! DEFINITION. The variable-rate circular-buffer pitch shifter (spec/42_pitch_shifter.md). -/

namespace Sys2Proof.Machine

open Sys2Proof

variable {F : Type}

/-- The re-anchor position `ofInt((w − minGap) mod size)` (R157). -/
def anchor (N : Num F) (size w minGap : Nat) : F := N.ofInt (cursorBack size w minGap)

/-- PS.INIT on the record (R156). -/
def PitchShifter.created (p : Params F) (sr : Int) : PitchShifter F :=
  let size := p.pitchSeconds * sr.toNat
  let minGap := max p.pitchGapMin (p.pitchGapNum * size / p.pitchGapDen)
  { size := size, minGap := minGap, w := 0, r := anchor p.toNum size 0 minGap, buf := [], init := true }

/-- `DIST(w, r) = (ofInt(w) − r) mod size` (R158). -/
def circularDistance (N : Num F) (size w : Nat) (r : F) : F := N.modInt (N.sub (N.ofInt w) r) size

/-- `INTERP(r)` (R159): the indices are reduced by the size (R62; log 13). -/
def interpolate (N : Num F) (size : Nat) (buf : Memory F) (r : F) : Except Fault F :=
  let i0 := indexMod size (N.floor r)
  let i1 := (i0 + 1) % size
  let frac := N.sub r (N.ofInt (N.floor r))
  match bufRead N size buf i0, bufRead N size buf i1 with
  | .ok a, .ok b => .ok (N.add (N.mul a (N.sub N.one frac)) (N.mul b frac))
  | .error f, _ => .error f
  | _, .error f => .error f

/-- The read cursor after one step of `rc`: one conditional subtraction of the size (R157). -/
def readAdvance (N : Num F) (size : Nat) (r rc : F) : F :=
  let r' := N.add r rc
  if N.le (N.ofInt size) r' then N.sub r' (N.ofInt size) else r'

/-- The drift check: a cursor outside the band is put back at the anchor (R157). -/
def driftChecked (N : Num F) (size minGap w : Nat) (r : F) : F :=
  let dist := circularDistance N size w r
  if N.lt dist (N.ofInt minGap) || N.lt (N.ofInt ((size : Int) - minGap)) dist then anchor N size w minGap else r

/-- The ratio is outside the dead-band (R157, R164). -/
def outsideDeadband (p : Params F) (rc : F) : Bool := p.lt p.pitchDeadband (p.abs (p.sub rc p.one))

/-- PS.PROC on the record: the shifter after one sample and its output (R157). -/
def PitchShifter.process [DecidableEq F] (p : Params F) (ps : PitchShifter F) (x ratio : F) :
    Except Fault (PitchShifter F × F) :=
  let rc := p.clamp ratio p.pitchMin p.pitchMax
  match bufWrite p.toNum ps.size ps.buf ps.w x with
  | .error f => .error f
  | .ok buf =>
    let w := cursorNext ps.size ps.w
    if outsideDeadband p rc then
      match interpolate p.toNum ps.size buf ps.r with
      | .error f => .error f
      | .ok y =>
        .ok ({ ps with
          buf := buf, w := w,
          r := driftChecked p.toNum ps.size ps.minGap w (readAdvance p.toNum ps.size ps.r rc) }, y)
    else .ok ({ ps with buf := buf, w := w, r := anchor p.toNum ps.size w ps.minGap }, x)

/-- PS.PROC on the state. -/
def State.shift [DecidableEq F] (p : Params F) (s : State F) (x ratio : F) : Except Fault (State F × F) :=
  match s.ps.process p x ratio with
  | .ok (ps, y) => .ok ({ s with ps := ps }, y)
  | .error f => .error f

/-- PS.INIT (R156). -/
def execPsInitWith (p : Params F) (sr : Word) (s : State F) : Result F :=
  s.guarded [stoppedCheck s, rangeCheck (decide (0 < i32 sr))]
    (complete { s with ps := PitchShifter.created p (i32 sr) })

/-- PS.INIT (R156) at the spec's parameters. -/
def execPsInit (sr : Word) (s : State) : Result := execPsInitWith theParams sr s

/-- PS.PROC (R157). -/
def execPsProcWith [DecidableEq F] (p : Params F) (x ratio : NUM) (s : State F) : Result F :=
  s.guarded [finiteCheck [x, ratio], stoppedCheck s, initCheck s.ps.init]
    (completeValue p.toNum (s.shift p (p.f32 x.bits) (p.f32 ratio.bits)))

/-- PS.PROC (R157) at the spec's parameters. -/
def execPsProc (x ratio : NUM) (s : State) : Result := execPsProcWith theParams x ratio s

end Sys2Proof.Machine
end

