-- ==== Sys2Proof/Machine/Reverb.lean ====
section
/-! DEFINITION. The comb filters and the reverb engine (spec/43_reverb.md). -/

namespace Sys2Proof.Machine

open Sys2Proof

variable {F : Type}

/-- CB.INIT on a record (R171). -/
def Comb.created (len : Nat) (fb : F) : Comb F := { len := len, fb := fb, cur := 0, buf := [], init := true }

/-- CB.PROC on a record: the comb after one sample and its output (R172). -/
def Comb.process [DecidableEq F] (N : Num F) (c : Comb F) (x : F) : Except Fault (Comb F × F) :=
  match bufRead N c.len c.buf c.cur with
  | .error f => .error f
  | .ok out =>
    match bufWrite N c.len c.buf c.cur (N.add x (N.mul out c.fb)) with
    | .error f => .error f
    | .ok buf => .ok ({ c with buf := buf, cur := cursorNext c.len c.cur }, out)

/-- `COMBLEN(k, sr)` by its default: COMB_MS as an exact rational, rounded with ties away from zero (R174). -/
def combLengthDefault (p : Params F) (k : Fin 3) (sr : Int) : Nat :=
  (2 * (p.combTenthMs.get k * sr.toNat) + 10000) / 20000

/-- COMB_LEN[k] at a sample rate: as configured, or by its default; at least 1 (R174). -/
def combLength (p : Params F) (k : Fin 3) (sr : Int) : Nat :=
  max 1 (match p.combLen with
    | some f => f k sr
    | none => combLengthDefault p k sr)

/-- RV.INIT on the three combs (R173). -/
def combsCreated (p : Params F) (sr : Int) : Vector (Comb F) 3 :=
  #v[Comb.created (combLength p 0 sr) (p.combFb.get 0), Comb.created (combLength p 1 sr) (p.combFb.get 1),
    Comb.created (combLength p 2 sr) (p.combFb.get 2)]

/-- The three combs stepped with the same input, and the mean of their outputs (R175). -/
def combsStepped [DecidableEq F] (N : Num F) (cb : Vector (Comb F) 3) (x : F) :
    Except Fault (Vector (Comb F) 3 × F) :=
  match cb[0].process N x, cb[1].process N x, cb[2].process N x with
  | .ok (c0, o0), .ok (c1, o1), .ok (c2, o2) =>
    .ok (#v[c0, c1, c2], N.div (N.add (N.add o0 o1) o2) (N.ofInt 3))
  | .error f, _, _ => .error f
  | _, .error f, _ => .error f
  | _, _, .error f => .error f

/-- RV.PROC on the three combs (R175). While dry the combs are not stepped, unless RV_STEP_WHEN_DRY
(spec/93_implementation_defined.md U3); the output is the input either way. -/
def reverbProcess [DecidableEq F] (p : Params F) (cb : Vector (Comb F) 3) (x wet : F) :
    Except Fault (Vector (Comb F) 3 × F) :=
  let we := p.clamp wet p.wetMin p.wetMax
  if p.le we p.zero then
    if p.rvStepWhenDry then
      match combsStepped p.toNum cb x with
      | .ok (cb', _) => .ok (cb', x)
      | .error f => .error f
    else .ok (cb, x)
  else
    match combsStepped p.toNum cb x with
    | .ok (cb', mean) => .ok (cb', p.add (p.mul x (p.sub p.one we)) (p.mul we mean))
    | .error f => .error f

/-- RV.PROC on the state. -/
def State.reverb [DecidableEq F] (p : Params F) (s : State F) (x wet : F) : Except Fault (State F × F) :=
  match reverbProcess p s.cb x wet with
  | .ok (cb, y) => .ok ({ s with cb := cb }, y)
  | .error f => .error f

/-- CB.PROC on the state. -/
def State.comb [DecidableEq F] (N : Num F) (s : State F) (k : Fin 3) (x : F) : Except Fault (State F × F) :=
  match (s.cb.get k).process N x with
  | .ok (c, y) => .ok (s.setCb k c, y)
  | .error f => .error f

/-- `ACT.wet` (R176). -/
def derivedWet (p : Params F) (snap : Snapshot F) (row : PresetRow F) : F :=
  let en := if snap.reverbEnabled then p.one else p.zero
  p.clamp (p.add (p.mul snap.reverbWet en) row.extraReverbWet) p.wetMin p.wetMax

/-- CB.INIT (R171). -/
def execCbInitWith (p : Params F) (u : BitVec 8) (len : Word) (fb : NUM) (s : State F) : Result F :=
  s.guarded [finiteCheck [fb], stoppedCheck s, rangeCheck (decide (u.toNat < 3) && decide (0 < i32 len))]
    (complete (s.setCb (combIndex u) (Comb.created (i32 len).toNat (p.f32 fb.bits))))

/-- CB.INIT (R171) at the spec's parameters. -/
def execCbInit (u : BitVec 8) (len : Word) (fb : NUM) (s : State) : Result := execCbInitWith theParams u len fb s

/-- CB.PROC (R172). -/
def execCbProcWith [DecidableEq F] (p : Params F) (u : BitVec 8) (x : NUM) (s : State F) : Result F :=
  s.guarded
    [finiteCheck [x], stoppedCheck s, rangeCheck (decide (u.toNat < 3)), initCheck (s.cb.get (combIndex u)).init]
    (completeValue p.toNum (s.comb p.toNum (combIndex u) (p.f32 x.bits)))

/-- CB.PROC (R172) at the spec's parameters. -/
def execCbProc (u : BitVec 8) (x : NUM) (s : State) : Result := execCbProcWith theParams u x s

/-- RV.INIT (R173). -/
def execRvInitWith (p : Params F) (sr : Word) (s : State F) : Result F :=
  s.guarded [stoppedCheck s, rangeCheck (decide (0 < i32 sr))]
    (complete { s with cb := combsCreated p (i32 sr) })

/-- RV.INIT (R173) at the spec's parameters. -/
def execRvInit (sr : Word) (s : State) : Result := execRvInitWith theParams sr s

/-- RV.PROC (R175). -/
def execRvProcWith [DecidableEq F] (p : Params F) (x wet : NUM) (s : State F) : Result F :=
  s.guarded [finiteCheck [x, wet], stoppedCheck s, initCheck (combsInit s.cb)]
    (completeValue p.toNum (s.reverb p (p.f32 x.bits) (p.f32 wet.bits)))

/-- RV.PROC (R175) at the spec's parameters. -/
def execRvProc (x wet : NUM) (s : State) : Result := execRvProcWith theParams x wet s

end Sys2Proof.Machine
end

