-- ==== Sys2Proof/Machine/Voice.lean ====
section
/-! DEFINITION. The voice presets (spec/45_voice_preset.md) and the voice-transform stage
(spec/46_voice_transform.md). -/

namespace Sys2Proof.Machine

open Sys2Proof

variable {F : Type}

/-- VP.LOAD on the record: a row of the table, whatever stood there (R202, R203). -/
def PresetConfig.loaded (p : Params F) (v : Preset) : PresetConfig F := { row := presetRow p v, init := true }

/-- VM.INIT on the record (R211). -/
def VoiceModulator.created (N : Num F) (sr : Int) : VoiceModulator F :=
  { phT := N.zero, phR := N.zero, phW := N.zero, sr := sr, init := true }

/-- `STEP(ph, rate)` (R213). -/
def phaseStep (N : Num F) (sr : Int) (ph rate : F) : F :=
  let twoPi := N.mul (N.ofInt 2) N.pi
  let ph' := N.add ph (N.div (N.mul twoPi rate) (N.ofInt sr))
  if N.le twoPi ph' then N.sub ph' twoPi else ph'

/-- A stage is on: its controlling amount is above 0 (R210). -/
def stageOn (N : Num F) (amount : F) : Bool := N.lt N.zero amount

/-- Step (2), tremolo (R212). -/
def VoiceModulator.tremolo (N : Num F) (row : PresetRow F) (vm : VoiceModulator F) (v : F) : VoiceModulator F × F :=
  if stageOn N row.vibratoDepth then
    ({ vm with phT := phaseStep N vm.sr vm.phT row.vibratoRateHz },
      N.mul v (N.add N.one (N.mul row.vibratoDepth (N.sin vm.phT))))
  else (vm, v)

/-- Step (3), ring modulation (R212). -/
def VoiceModulator.ring (N : Num F) (row : PresetRow F) (vm : VoiceModulator F) (v : F) : VoiceModulator F × F :=
  if stageOn N row.ringMix then
    ({ vm with phR := phaseStep N vm.sr vm.phR row.ringFrequencyHz },
      N.add (N.mul (N.sub N.one row.ringMix) v) (N.mul row.ringMix (N.mul v (N.sin vm.phR))))
  else (vm, v)

/-- Step (4), soft distortion (R212). -/
def distortion (p : Params F) (row : PresetRow F) (v : F) : F :=
  if stageOn p.toNum row.distortionAmount then
    p.tanh (p.mul v (p.add p.one (p.mul row.distortionAmount p.distDrive)))
  else v

/-- Step (5), phase warp (R212). -/
def VoiceModulator.warp (p : Params F) (row : PresetRow F) (vm : VoiceModulator F) (v : F) : VoiceModulator F × F :=
  if stageOn p.toNum row.phaseDistortionAmount then
    ({ vm with phW := phaseStep p.toNum vm.sr vm.phW p.warpHz },
      p.sin (p.mul v (p.add p.one (p.mul row.phaseDistortionAmount (p.sin vm.phW)))))
  else (vm, v)

/-- VM.PROC on the record: the modulator after one sample and its output (R212). -/
def VoiceModulator.process (p : Params F) (row : PresetRow F) (vm : VoiceModulator F) (x : F) : VoiceModulator F × F :=
  let t := vm.tremolo p.toNum row x
  let r := t.1.ring p.toNum row t.2
  r.1.warp p row (distortion p row r.2)

/-- VM.PROC on the state. -/
def State.modulate (p : Params F) (s : State F) (x : F) : State F × F :=
  let r := s.vm.process p s.pc.row x
  ({ s with vm := r.1 }, r.2)

/-- VP.LOAD (R202): every 16-bit code is accepted. -/
def execVpLoadWith (p : Params F) (preset : BitVec 16) (s : State F) : Result F :=
  s.guarded [stoppedCheck s] (complete { s with pc := PresetConfig.loaded p (Preset.ofCode preset.toNat) })

/-- VP.LOAD (R202) at the spec's parameters. -/
def execVpLoad (preset : BitVec 16) (s : State) : Result := execVpLoadWith theParams preset s

/-- VM.INIT (R211). -/
def execVmInitWith (p : Params F) (sr : Word) (s : State F) : Result F :=
  s.guarded [stoppedCheck s, rangeCheck (decide (0 < i32 sr))]
    (complete { s with vm := VoiceModulator.created p.toNum (i32 sr) })

/-- VM.INIT (R211) at the spec's parameters. -/
def execVmInit (sr : Word) (s : State) : Result := execVmInitWith theParams sr s

/-- VM.PROC (R212). -/
def execVmProcWith (p : Params F) (x : NUM) (s : State F) : Result F :=
  s.guarded [finiteCheck [x], stoppedCheck s, initCheck (s.vm.init && s.pc.init)]
    (completeValue p.toNum (.ok (s.modulate p (p.f32 x.bits))))

/-- VM.PROC (R212) at the spec's parameters. -/
def execVmProc (x : NUM) (s : State) : Result := execVmProcWith theParams x s

end Sys2Proof.Machine
end

