-- ==== Sys2Proof/WellFormed.lean ====
section
/-! DEFINITION. Which instructions an encoding can carry: every `F` operand finite
(spec/30_encoding.md R107), at most 65535 samples in LM.FRAME (R102), and a frame with exactly
`max(n, 0)` samples (R95). The decoder answers only such instructions. -/

namespace Sys2Proof

/-- Every `F` word of APPLY's payload is finite (R100, R107). -/
def DspParameters.wf (p : DspParameters) : Bool :=
  p.eq.toList.all (fun e => e.gainDb.isFinite) && p.pitchRatio.isFinite && p.reverbWet.isFinite &&
    p.echoFeedback.isFinite && p.volume.isFinite

/-- The count word of a frame agrees with its samples: there are `max(n, 0)` of them (R95). -/
def Frame.wf (f : Frame) : Bool := f.samples.length == f.count.toInt.toNat

/-- The operands are ones an encoding can carry (R95, R102, R107). -/
def Instr.wf : Instr → Bool
  | .start _ _ => true
  | .stop => true
  | .apply p => p.wf
  | .bqByp _ => true
  | .bqPeak _ freq gainDb q _ => freq.isFinite && gainDb.isFinite && q.isFinite
  | .bqLsh _ freq gainDb _ => freq.isFinite && gainDb.isFinite
  | .bqHsh _ freq gainDb _ => freq.isFinite && gainDb.isFinite
  | .bqProc _ x => x.isFinite
  | .psInit _ => true
  | .psProc x ratio => x.isFinite && ratio.isFinite
  | .cbInit _ _ fb => fb.isFinite
  | .cbProc _ x => x.isFinite
  | .rvInit _ => true
  | .rvProc x wet => x.isFinite && wet.isFinite
  | .ecInit _ => true
  | .ecCfg _ mix feedback => mix.isFinite && feedback.isFinite
  | .ecProc x => x.isFinite
  | .vpLoad _ => true
  | .vmInit _ => true
  | .vmProc x => x.isFinite
  | .lmFrame samples => samples.length < 65536
  | .frame n samples => (Frame.mk n samples).wf

end Sys2Proof
end

