-- ==== Sys2Proof/Machine/Sequencer.lean ====
section
/-! DEFINITION. The sequencer (spec/48_stream_processor.md): START, STOP, APPLY, FRAME, and the internal
micro-operations DERIVE and SAMPLE. -/

namespace Sys2Proof.Machine

open Sys2Proof

variable {F : Type}

/-- DERIVE (R240): every derived field from SNAP and SR, and PEND cleared. -/
def State.derive (p : Params F) (s : State F) : State F :=
  let pc := PresetConfig.loaded p s.snap.voicePreset
  { s with
    pc := pc
    bq := derivedBank p s.snap pc.row s.sr
    act :=
      { pitchRatio := s.snap.pitchRatio
        volume := s.snap.volume
        eqOn := derivedEqOn p s.snap
        wet := derivedWet p s.snap pc.row }
    ec := derivedEcho p s.ec s.snap pc.row s.sr
    pend := false }

/-- The units as START creates them, before it derives (R231). -/
def State.created (p : Params F) (sr : Int) (s : State F) : State F :=
  { s with
    run := .starting
    sr := sr
    ps := PitchShifter.created p sr
    cb := combsCreated p sr
    ec := Echo.created p.toNum (echoInitLen p sr)
    vm := VoiceModulator.created p.toNum sr }

/-- The state of a stream that START has begun: every unit created and configured, Running (R231). -/
def State.started (p : Params F) (sr : Int) (s : State F) : State F :=
  { (s.created p sr).derive p with run := .running }

/-- START (R231). A failure is a completion with status FAIL, not a refusal. -/
def execStartWith (p : Params F) (ok : Bool) (sr : Word) (s : State F) : Result F :=
  s.guarded [stoppedCheck s]
    (if ok && decide (0 < i32 sr) then
      .next ((s.started p (i32 sr)).respond .ok 1#32)
    else .next (s.respond .fail 0#32))

/-- START (R231) at the spec's parameters. -/
def execStart (ok : Bool) (sr : Word) (s : State) : Result := execStartWith theParams ok sr s

/-- The state of Stopped: every unit without a value, SNAP and PEND kept (R233, R292; log 7). What the ports hold is not
the block's and stays: frames on CAP are held for the next START, the model's choice (log 31). -/
def State.destroyed (N : Num F) (s : State F) : State F :=
  { State.initial N with
    snap := s.snap, pend := s.pend, ctrl := s.ctrl, cap := s.cap, out := s.out, pick := s.pick, ahead := s.ahead,
    late := s.late }

/-- STOP (R233): admitted in every run state. -/
def execStopWith (p : Params F) (s : State F) : Result F := complete (s.destroyed p.toNum)

/-- STOP (R233) at the spec's parameters. -/
def execStop (s : State) : Result := execStopWith theParams s

/-- APPLY (R234): publishes the clamped snapshot and touches nothing else (R40). -/
def execApplyWith (p : Params F) (a : DspParameters) (s : State F) : Result F :=
  s.guarded [(a.wf, .errIllegal)] (complete { s with snap := clamped p a, pend := true })

/-- APPLY (R234) at the spec's parameters. -/
def execApply (a : DspParameters) (s : State) : Result := execApplyWith theParams a s

/-- SAMPLE (R242): one sample through S0 to S9. -/
def State.sample [DecidableEq F] (p : Params F) (s : State F) (h : Half) : Except Fault (State F × Half) :=
  let e := s.eqStage p (pcmIn p h)
  let f := e.1.formantStage p.toNum e.2
  match f.1.shift p f.2 f.1.act.pitchRatio with
  | .error x => .error x
  | .ok (s3, v3) =>
    let m := s3.modulate p v3
    let t := m.1.toneStage p.toNum m.2
    match t.1.reverb p t.2 t.1.act.wet with
    | .error x => .error x
    | .ok (s5, v5) =>
      match s5.echo p.toNum v5 with
      | .error x => .error x
      | .ok (s6, v6) => .ok (s6, pcmOut p (p.clamp (p.mul v6 s6.act.volume) p.clipLo p.clipHi))

/-- The samples of a frame in order, each seeing the state the one before left (R238). -/
def State.samples [DecidableEq F] (p : Params F) : State F → List Half → Except Fault (State F × List Half)
  | s, [] => .ok (s, [])
  | s, h :: hs =>
    match s.sample p h with
    | .error x => .error x
    | .ok (s', q) =>
      match State.samples p s' hs with
      | .error x => .error x
      | .ok (s'', qs) => .ok (s'', q :: qs)

/-- The latch at the top of a frame (R238). -/
def State.latched (p : Params F) (s : State F) : State F := if s.pend then s.derive p else s

/-- FRAME (R238): the latch, the level of the raw input, the samples, the output frame. A count of at most
0 is a failed read; while not Running nothing happens (R244). -/
def execFrameWith [DecidableEq F] (p : Params F) (n : Word) (samples : List Half) (s : State F) : Result F :=
  if s.run = .running then
    let s1 := s.latched p
    if i32 n ≤ 0 then .next s1
    else
      let s2 := s1.emit (.level (p.encF32 (level p samples (i32 n))))
      match s2.samples p samples with
      | .error f => .fault f
      | .ok (s3, qs) => .next (s3.emit (.played ⟨n, qs⟩))
  else .next s

/-- FRAME (R238) at the spec's parameters. -/
def execFrame (n : Word) (samples : List Half) (s : State) : Result := execFrameWith theParams n samples s

end Sys2Proof.Machine
end

