-- ==== Sys2Proof/Machine/Configured.lean ====
section
/-! DEFINITION. The meaning of every instruction over any carrier and any parameters (spec/00_scope.md R6, R9).
`exec` of Machine/Dispatch.lean is this at the spec's values. -/

namespace Sys2Proof.Machine

open Sys2Proof

/-- The meaning of an instruction under the parameters `p`. -/
def execWith {F : Type} [DecidableEq F] (p : Params F) (i : Instr) (s : State F) : Result F :=
  match i with
  | .start ok sr => execStartWith p ok sr s
  | .stop => execStopWith p s
  | .apply a => execApplyWith p a s
  | .bqByp u => execBqBypWith p u s
  | .bqPeak u freq gainDb q sampleRate => execBqPeakWith p u freq gainDb q sampleRate s
  | .bqLsh u freq gainDb sampleRate => execBqLshWith p u freq gainDb sampleRate s
  | .bqHsh u freq gainDb sampleRate => execBqHshWith p u freq gainDb sampleRate s
  | .bqProc u x => execBqProcWith p u x s
  | .psInit sr => execPsInitWith p sr s
  | .psProc x ratio => execPsProcWith p x ratio s
  | .cbInit u len fb => execCbInitWith p u len fb s
  | .cbProc u x => execCbProcWith p u x s
  | .rvInit sr => execRvInitWith p sr s
  | .rvProc x wet => execRvProcWith p x wet s
  | .ecInit len => execEcInitWith p len s
  | .ecCfg delaySamples mix feedback => execEcCfgWith p delaySamples mix feedback s
  | .ecProc x => execEcProcWith p x s
  | .vpLoad preset => execVpLoadWith p preset s
  | .vmInit sr => execVmInitWith p sr s
  | .vmProc x => execVmProcWith p x s
  | .lmFrame samples => execLmFrameWith p samples s
  | .frame n samples => execFrameWith p n samples s

end Sys2Proof.Machine
end

