-- ==== Sys2Proof/Decode.lean ====
section
/-! DEFINITION. The decoder and the encoder of spec/30_encoding.md: command words with their payload on
port CTRL (R90 to R107), frames on port CAP (R95), and the little-endian byte transport of
spec/20_memory.md R70. Decoding is total: it answers an instruction, an error by name, or that the words
offered do not yet make a whole command. -/

namespace Sys2Proof

/-! ## Opcodes -/

/-- The 21 assigned opcodes of R96. -/
inductive Opcode where
  | start | stop | apply | bqByp | bqPeak | bqLsh | bqHsh | bqProc | psInit | psProc
  | cbInit | cbProc | rvInit | rvProc | ecInit | ecCfg | ecProc | vpLoad | vmInit | vmProc | lmFrame
deriving DecidableEq, Repr

/-- The `enc.` column of R96. -/
def Opcode.bits : Opcode → BitVec 8
  | .start => 0x01#8
  | .stop => 0x02#8
  | .apply => 0x03#8
  | .bqByp => 0x10#8
  | .bqPeak => 0x11#8
  | .bqLsh => 0x12#8
  | .bqHsh => 0x13#8
  | .bqProc => 0x14#8
  | .psInit => 0x20#8
  | .psProc => 0x21#8
  | .cbInit => 0x30#8
  | .cbProc => 0x31#8
  | .rvInit => 0x32#8
  | .rvProc => 0x33#8
  | .ecInit => 0x40#8
  | .ecCfg => 0x41#8
  | .ecProc => 0x42#8
  | .vpLoad => 0x50#8
  | .vmInit => 0x51#8
  | .vmProc => 0x52#8
  | .lmFrame => 0x60#8

/-- Every assigned opcode, in the order of R96. -/
def Opcode.all : List Opcode :=
  [.start, .stop, .apply, .bqByp, .bqPeak, .bqLsh, .bqHsh, .bqProc, .psInit, .psProc, .cbInit, .cbProc,
    .rvInit, .rvProc, .ecInit, .ecCfg, .ecProc, .vpLoad, .vmInit, .vmProc, .lmFrame]

/-- The opcode with these bits; none for the unassigned ones (R106). -/
def Opcode.ofBits (b : BitVec 8) : Option Opcode := Opcode.all.find? (fun o => o.bits == b)

/-- The number of payload words after a command word with this opcode and immediate (R103). -/
def Opcode.payloadLength (o : Opcode) (imm : BitVec 16) : Nat :=
  match o with
  | .stop | .bqByp | .vpLoad => 0
  | .start | .bqProc | .psInit | .cbProc | .rvInit | .ecInit | .ecProc | .vmInit | .vmProc => 1
  | .psProc | .cbInit | .rvProc => 2
  | .bqLsh | .bqHsh | .ecCfg => 3
  | .bqPeak => 4
  | .apply => 18
  | .lmFrame => imm.toNat

/-- The bits of `u` that must be zero: none for the operations on an instance, all for the others
(R97, R105). -/
def Opcode.unitMask : Opcode → BitVec 8
  | .bqByp | .bqPeak | .bqLsh | .bqHsh | .bqProc | .cbInit | .cbProc => 0x00#8
  | _ => 0xFF#8

/-- The bits of `imm` that must be zero: all but bit 0 for START, none where the immediate is an
operand, all otherwise (R105). -/
def Opcode.immMask : Opcode → BitVec 16
  | .start => 0xFFFE#16
  | .vpLoad | .lmFrame => 0x0000#16
  | _ => 0xFFFF#16

/-! ## Fields of a command word (R90) -/

/-- `op`, bits 31 to 24. -/
def opField (w : Word) : BitVec 8 := w.extractLsb' 24 8

/-- `u`, bits 23 to 16. -/
def unitField (w : Word) : BitVec 8 := w.extractLsb' 16 8

/-- `imm`, bits 15 to 0. -/
def immField (w : Word) : BitVec 16 := w.extractLsb' 0 16

/-- A command word from its three fields. -/
def commandWord (o : Opcode) (u : BitVec 8) (imm : BitVec 16) : Word := o.bits ++ u ++ imm

/-- No reserved bit of the command word is set (R105). -/
def fieldsClear (o : Opcode) (w : Word) : Bool :=
  unitField w &&& o.unitMask == 0#8 && immField w &&& o.immMask == 0#16

/-! ## Payload words (R92) -/

/-- Why a command is answered ERR_ILLEGAL (spec/60_exceptions.md R263). -/
inductive DecodeError where
  /-- R263 (a): `op` is no assigned opcode. -/
  | unassignedOpcode
  /-- R263 (b): a reserved bit of `u` or `imm` is set. -/
  | reservedField
  /-- R263 (c): bits 31 to 2 of the `B` word are not zero. -/
  | malformedFlags
  /-- R263 (d): an `S` word is not a sign-extended 16-bit value. -/
  | malformedSample
  /-- R263 (e): an `F` word is a NaN or an infinity. -/
  | nonFinite
  /-- The payload has not the length of R103; the framing of `decode` never lets this arise. -/
  | payloadLength
deriving DecidableEq, Repr

/-- The operands an `F` word list stands for, all finite (R107). -/
def finiteWords (ws : List Word) : Bool := ws.all (fun w => (NUM.mk w).isFinite)

/-- An `S` word is well formed: bits 31 to 16 are copies of bit 15 (R92). -/
def sampleWordOk (w : Word) : Bool := w == (w.extractLsb' 0 16).signExtend 32

/-- The sample an `S` word carries (R104). -/
def sampleOfWord (w : Word) : Half := w.extractLsb' 0 16

/-- The `S` word that carries a sample (R92). -/
def wordOfSample (h : Half) : Word := h.signExtend 32

/-- The two flags of the `B` word (R92). -/
def flagsWord (reverb echo : Bool) : Word :=
  (BitVec.ofBool echo ++ BitVec.ofBool reverb).setWidth 32

/-- The `B` word has no reserved bit set (R105). -/
def flagsOk (w : Word) : Bool := w.extractLsb' 2 30 == 0#30

/-- `i`, if the `F` words among its operands are finite (R107). -/
def whenFinite (fs : List Word) (i : Instr) : Except DecodeError Instr :=
  if finiteWords fs then .ok i else .error .nonFinite

/-- APPLY's parameters from its 18 payload words (R100). -/
def decodeApply : List Word → Except DecodeError Instr
  | [p1, p2, p3, p4, p5, p6, p7, p8, p9, p10, p11, p12, p13, p14, p15, p16, p17, p18] =>
    if flagsOk p13 then
      whenFinite [p2, p4, p6, p8, p10, p11, p14, p16, p17] <| .apply
        { eq := #v[⟨p1, ⟨p2⟩⟩, ⟨p3, ⟨p4⟩⟩, ⟨p5, ⟨p6⟩⟩, ⟨p7, ⟨p8⟩⟩, ⟨p9, ⟨p10⟩⟩],
          pitchRatio := ⟨p11⟩, formantShift := p12,
          reverbEnabled := p13.getLsbD 0, echoEnabled := p13.getLsbD 1,
          reverbWet := ⟨p14⟩, echoDelayMs := p15, echoFeedback := ⟨p16⟩, volume := ⟨p17⟩,
          voicePreset := p18 }
    else .error .malformedFlags
  | _ => .error .payloadLength

/-- The instruction of an opcode, a command word with clear reserved fields and a payload (R96, R104). -/
def decodeOperands (o : Opcode) (w : Word) (payload : List Word) : Except DecodeError Instr :=
  match o, payload with
  | .start, [sr] => .ok (.start ((immField w).getLsbD 0) sr)
  | .stop, [] => .ok .stop
  | .apply, ps => decodeApply ps
  | .bqByp, [] => .ok (.bqByp (unitField w))
  | .bqPeak, [f, g, q, sr] => whenFinite [f, g, q] (.bqPeak (unitField w) ⟨f⟩ ⟨g⟩ ⟨q⟩ sr)
  | .bqLsh, [f, g, sr] => whenFinite [f, g] (.bqLsh (unitField w) ⟨f⟩ ⟨g⟩ sr)
  | .bqHsh, [f, g, sr] => whenFinite [f, g] (.bqHsh (unitField w) ⟨f⟩ ⟨g⟩ sr)
  | .bqProc, [x] => whenFinite [x] (.bqProc (unitField w) ⟨x⟩)
  | .psInit, [sr] => .ok (.psInit sr)
  | .psProc, [x, r] => whenFinite [x, r] (.psProc ⟨x⟩ ⟨r⟩)
  | .cbInit, [len, fb] => whenFinite [fb] (.cbInit (unitField w) len ⟨fb⟩)
  | .cbProc, [x] => whenFinite [x] (.cbProc (unitField w) ⟨x⟩)
  | .rvInit, [sr] => .ok (.rvInit sr)
  | .rvProc, [x, wet] => whenFinite [x, wet] (.rvProc ⟨x⟩ ⟨wet⟩)
  | .ecInit, [len] => .ok (.ecInit len)
  | .ecCfg, [d, m, f] => whenFinite [m, f] (.ecCfg d ⟨m⟩ ⟨f⟩)
  | .ecProc, [x] => whenFinite [x] (.ecProc ⟨x⟩)
  | .vpLoad, [] => .ok (.vpLoad (immField w))
  | .vmInit, [sr] => .ok (.vmInit sr)
  | .vmProc, [x] => whenFinite [x] (.vmProc ⟨x⟩)
  | .lmFrame, ss =>
    if ss.all sampleWordOk then .ok (.lmFrame (ss.map sampleOfWord)) else .error .malformedSample
  | _, _ => .error .payloadLength

/-- A command whose payload is already cut off: reserved fields first, then the operands (R267 (2)). -/
def decodeCommand (o : Opcode) (w : Word) (payload : List Word) : Except DecodeError Instr :=
  if fieldsClear o w then decodeOperands o w payload else .error .reservedField

/-! ## The stream on CTRL -/

/-- What the words offered on CTRL begin with. -/
inductive Decoded where
  /-- A command, and the words after it. -/
  | command (i : Instr) (rest : List Word)
  /-- A command that is answered ERR_ILLEGAL, and the words after what it consumes (R103). -/
  | illegal (e : DecodeError) (rest : List Word)
  /-- No whole command yet: the transaction is not offered (R66). -/
  | incomplete
deriving DecidableEq, Repr

/-- Reads the next command of CTRL: the payload of an assigned opcode is consumed in full, of an
unassigned one the command word alone (R103). -/
def decode : List Word → Decoded
  | [] => .incomplete
  | w :: ws =>
    match Opcode.ofBits (opField w) with
    | none => .illegal .unassignedOpcode ws
    | some o =>
      let k := o.payloadLength (immField w)
      if ws.length < k then .incomplete
      else
        match decodeCommand o w (ws.take k) with
        | .ok i => .command i (ws.drop k)
        | .error e => .illegal e (ws.drop k)

/-- Reads a frame of CAP: the count word must agree with the samples (R95). A count beyond a finite
FRAME_MAX is outside the spec's input domain. -/
def decodeFrame (frameMax : Option Nat) (f : Frame) : Option Instr :=
  if f.wf && frameMax.all (fun m => f.samples.length ≤ m) then some (.frame f.count f.samples) else none

/-! ## The encoder -/

/-- One transaction of a port: a command with its payload on CTRL, or a frame on CAP (R66, R67). -/
inductive Transaction where
  | ctrl (words : List Word)
  | cap (f : Frame)
deriving DecidableEq, Repr

/-- APPLY's 18 payload words (R100). -/
def encodeApply (p : DspParameters) : List Word :=
  [p.eq[0].freq, p.eq[0].gainDb.bits, p.eq[1].freq, p.eq[1].gainDb.bits, p.eq[2].freq, p.eq[2].gainDb.bits,
    p.eq[3].freq, p.eq[3].gainDb.bits, p.eq[4].freq, p.eq[4].gainDb.bits, p.pitchRatio.bits, p.formantShift,
    flagsWord p.reverbEnabled p.echoEnabled, p.reverbWet.bits, p.echoDelayMs, p.echoFeedback.bits,
    p.volume.bits, p.voicePreset]

/-- The words of an instruction (R99 to R102), or its frame (R95). -/
def encode : Instr → Transaction
  | .start ok sr => .ctrl [commandWord .start 0 ((BitVec.ofBool ok).setWidth 16), sr]
  | .stop => .ctrl [commandWord .stop 0 0]
  | .apply p => .ctrl (commandWord .apply 0 0 :: encodeApply p)
  | .bqByp u => .ctrl [commandWord .bqByp u 0]
  | .bqPeak u f g q sr => .ctrl [commandWord .bqPeak u 0, f.bits, g.bits, q.bits, sr]
  | .bqLsh u f g sr => .ctrl [commandWord .bqLsh u 0, f.bits, g.bits, sr]
  | .bqHsh u f g sr => .ctrl [commandWord .bqHsh u 0, f.bits, g.bits, sr]
  | .bqProc u x => .ctrl [commandWord .bqProc u 0, x.bits]
  | .psInit sr => .ctrl [commandWord .psInit 0 0, sr]
  | .psProc x r => .ctrl [commandWord .psProc 0 0, x.bits, r.bits]
  | .cbInit u len fb => .ctrl [commandWord .cbInit u 0, len, fb.bits]
  | .cbProc u x => .ctrl [commandWord .cbProc u 0, x.bits]
  | .rvInit sr => .ctrl [commandWord .rvInit 0 0, sr]
  | .rvProc x wet => .ctrl [commandWord .rvProc 0 0, x.bits, wet.bits]
  | .ecInit len => .ctrl [commandWord .ecInit 0 0, len]
  | .ecCfg d m f => .ctrl [commandWord .ecCfg 0 0, d, m.bits, f.bits]
  | .ecProc x => .ctrl [commandWord .ecProc 0 0, x.bits]
  | .vpLoad p => .ctrl [commandWord .vpLoad 0 p]
  | .vmInit sr => .ctrl [commandWord .vmInit 0 0, sr]
  | .vmProc x => .ctrl [commandWord .vmProc 0 0, x.bits]
  | .lmFrame ss => .ctrl (commandWord .lmFrame 0 (BitVec.ofNat 16 ss.length) :: ss.map wordOfSample)
  | .frame n ss => .cap ⟨n, ss⟩

/-- Reads one whole transaction: the decoder of the port it stands on, with nothing left over. -/
def decodeTransaction : Transaction → Option Instr
  | .ctrl ws =>
    match decode ws with
    | .command i [] => some i
    | _ => none
  | .cap f => decodeFrame none f

/-! ## The byte-serial transport (R70): every word least significant byte first -/

/-- The four bytes of a word in transport order. -/
def bytesOfWord (w : Word) : List Byte :=
  [w.extractLsb' 0 8, w.extractLsb' 8 8, w.extractLsb' 16 8, w.extractLsb' 24 8]

/-- The two bytes of a sample in transport order. -/
def bytesOfHalf (h : Half) : List Byte := [h.extractLsb' 0 8, h.extractLsb' 8 8]

/-- The bytes of a transaction in transport order. -/
def Transaction.bytes : Transaction → List Byte
  | .ctrl ws => ws.flatMap bytesOfWord
  | .cap f => bytesOfWord f.count ++ f.samples.flatMap bytesOfHalf

/-- The whole words that bytes of a transport make. -/
def wordsOfBytes : List Byte → List Word
  | b0 :: b1 :: b2 :: b3 :: rest => (b3 ++ b2 ++ b1 ++ b0) :: wordsOfBytes rest
  | _ => []

/-- The whole samples that bytes of a transport make. -/
def halvesOfBytes : List Byte → List Half
  | b0 :: b1 :: rest => (b1 ++ b0) :: halvesOfBytes rest
  | _ => []

/-- The frame that the bytes of a transport of CAP make: a count word, then samples. -/
def frameOfBytes : List Byte → Option Frame
  | b0 :: b1 :: b2 :: b3 :: rest => some ⟨b3 ++ b2 ++ b1 ++ b0, halvesOfBytes rest⟩
  | _ => none

/-! ## The opcode table's numbering -/

/-- The `k`-th 32-bit word of an instruction whose bits are `w`. -/
def tableWord (w k : Nat) : Word := BitVec.ofNat 32 (w >>> (32 * k))

/-- The command that the bits `w` make on CTRL: the command word and as many payload words as R103
gives it. -/
def tableCommand (w : Nat) : List Word :=
  let first := tableWord w 0
  match Opcode.ofBits (opField first) with
  | none => [first]
  | some o => first :: (List.range (o.payloadLength (immField first))).map (fun k => tableWord w (k + 1))

/-- The frame that the bits `w` make on CAP: the count word, then `max(n, 0)` 16-bit words. -/
def tableFrame (w : Nat) : Frame :=
  let n := tableWord w 0
  ⟨n, (List.range n.toInt.toNat).map (fun k => BitVec.ofNat 16 (w >>> (32 + 16 * k)))⟩

/-- The transaction that the table's bits make. A first word whose `op` is 0x00 is no command (R91), and
of the table's rows only FRAME, whose first word is a count, can begin with it: it stands on CAP. -/
def tableTransaction (nbits w : Nat) : Transaction :=
  let bits := w % 2 ^ nbits
  if opField (tableWord bits 0) == 0x00#8 then .cap (tableFrame bits) else .ctrl (tableCommand bits)

/-- The instruction the decoder reads from an instruction whose bits are `w`, numbered as
spec/opcode_table.json numbers them (log 19). -/
def decodeTableWord (nbits w : Nat) : Option Instr := decodeTransaction (tableTransaction nbits w)

end Sys2Proof
end

