-- ==== Sys2Proof/Machine/Fetch.lean ====
section
/-! DEFINITION. Which transaction a step takes (spec/20_memory.md R66, R67, R75; spec/48_stream_processor.md R244,
R246): the next whole command on CTRL, or, while Running, the next frame on CAP. Where both are ready either
may go first, so the choice is free, within what the spec promises of it: the worker's step is eventually taken
(spec/00_scope.md R14; log 10), and past a STOP that is offered at most one frame goes (R247; log 28, log 30). -/

namespace Sys2Proof.Machine

open Sys2Proof

variable {F : Type}

/-! ## What the ports offer -/

/-- A whole command, or one that is answered ERR_ILLEGAL, is offered on CTRL. -/
def State.commandReady (s : State F) : Bool := decode s.ctrl != .incomplete

/-- A frame is offered on CAP and the worker exists (R244). -/
def State.frameReady (s : State F) : Bool := decide (s.run = .running) && !s.cap.isEmpty

/-- How many STOPs stand among the first commands of these words, as many as the first argument says. -/
def stopsAmong : Nat → List Word → Nat
  | 0, _ => 0
  | k + 1, ws =>
    match decode ws with
    | .command .stop rest => stopsAmong k rest + 1
    | .command _ rest => stopsAmong k rest
    | .illegal _ rest => stopsAmong k rest
    | .incomplete => 0

/-- How many STOPs these words of CTRL offer, each command of which is at least one word. A STOP counts as offered
once it is on CTRL, also behind other commands: the model's reading of R247 (log 28). -/
def stopsOffered (ws : List Word) : Nat := stopsAmong ws.length ws

/-! ## Whose turn it is -/

/-- Whose turn a step is, and the state it starts from. -/
inductive Turn (F : Type := NUM) where
  /-- Neither port holds a transaction that can be taken. -/
  | idle
  /-- The control context's: a command. -/
  | control (s : State F)
  /-- The worker's: a frame. -/
  | worker (s : State F)
deriving DecidableEq, Repr

/-- The worker goes, where a command and a frame are both ready: as many commands as the free number says have
gone ahead of the frame, and no frame has yet been taken past a STOP that is offered (R247). -/
def State.workerGoes (s : State F) : Bool :=
  (s.late == 0 || stopsOffered s.ctrl == 0) && decide (Config.commandsFirst s.pick ≤ s.ahead)

/-- Whose turn it is; a free choice where both are ready. -/
def State.turn (s : State F) : Turn F :=
  match s.commandReady, s.frameReady with
  | false, false => .idle
  | true, false => .control s
  | false, true => .worker s
  | true, true =>
    if s.workerGoes then .worker s else .control { s with ahead := s.ahead + 1 }

/-! ## Taking a transaction from its port -/

/-- The state after a command is taken and `rest` is left on CTRL. A STOP that is taken leaves the mark of its own
frame with it, so that a STOP offered since that frame has none: the model's choice (log 30). -/
def State.tookCommand (s : State F) (rest : List Word) : State F :=
  { s with ctrl := rest, late := s.late - (stopsOffered s.ctrl - stopsOffered rest) }

/-- The state after a frame is taken and `rest` is left on CAP. It goes past every STOP on CTRL, also one behind
another STOP and a START: the model's choice (log 30). -/
def State.tookFrame (s : State F) (rest : List Frame) : State F :=
  { s with cap := rest, pick := s.pick + 1, ahead := 0, late := stopsOffered s.ctrl }

/-! ## Offering one transaction to a state -/

/-- The sample rate of the stream that `State.offered` starts for a frame: the one of the spec's examples. -/
def offeredRate : Int := 44100

/-- The state with one transaction offered and nothing else, so that the next step takes it. A frame is taken
in Running only, and Running is what a START leaves: a stream is started where there is none (log 19). -/
def State.offered (s : State) : Transaction → State
  | .ctrl ws => { s with ctrl := ws, cap := [] }
  | .cap f => { (if s.run = .running then s else s.started theParams offeredRate) with ctrl := [], cap := [f] }

end Sys2Proof.Machine
end

