-- ==== Sys2Proof/Machine/Agents.lean ====
section
/-! DEFINITION. The agents of spec/00_scope.md R8, each with its own step over the one state: the control context
(`ctrl(cmd)` of spec/48_stream_processor.md R246), the worker (`frame(f)`), and what stands outside the block: the
caller that offers commands and the collaborators that offer frames and accept what the block emits. Any
interleaving of these steps is a run; `State.stepBy` is the one the machine's own step takes. -/

namespace Sys2Proof.Machine

open Sys2Proof

variable {F : Type}

/-- The control context's step: the next whole command of CTRL, run or answered ERR_ILLEGAL
(spec/30_encoding.md R105 to R107); nothing where none is whole. It is enabled in every run state (R246). -/
def State.controlStep (meaning : Instr → State F → Result F) (s : State F) : Result F :=
  match decode s.ctrl with
  | .command i rest => meaning i (s.tookCommand rest)
  | .illegal _ rest => .next ((s.tookCommand rest).refuse .errIllegal)
  | .incomplete => .next s

/-- The worker's step: FRAME of the next frame of CAP, enabled while Running (R244, R246); otherwise nothing. A
frame outside the input domain is refused (spec/30_encoding.md R95; log 12). -/
def State.workerStep (frameMax : Option Nat) (meaning : Instr → State F → Result F) (s : State F) : Result F :=
  if s.run = .running then
    match s.cap with
    | [] => .next s
    | f :: rest =>
      match decodeFrame frameMax f with
      | some i => meaning i (s.tookFrame rest)
      | none => .refused .malformedFrame
  else .next s

/-- What an agent outside the block does at a port (spec/20_memory.md R66 to R69). -/
inductive External where
  /-- The control context's caller offers words on CTRL. -/
  | offerWords (ws : List Word)
  /-- The caller takes the oldest response from RSP. -/
  | takeResponse
  /-- The capture collaborator offers a frame on CAP. -/
  | offerFrame (f : Frame)
  /-- The capture collaborator drops the frame at this place of CAP while the block is not Running
  (spec/48_stream_processor.md R244). A frame that it does not drop it holds: the model's choice (log 31). -/
  | dropFrame (k : Nat)
  /-- The level consumer accepts the oldest level event of LVL. -/
  | acceptLevel
  /-- The playback collaborator accepts the oldest frame of PLAY. -/
  | acceptFrame
deriving DecidableEq, Repr

/-- The event left on RSP. -/
def Output.isResponse : Output → Bool
  | .response _ _ => true
  | .level _ => false
  | .played _ => false

/-- The event left on LVL. -/
def Output.isLevel : Output → Bool
  | .response _ _ => false
  | .level _ => true
  | .played _ => false

/-- The event left on PLAY. -/
def Output.isPlayed : Output → Bool
  | .response _ _ => false
  | .level _ => false
  | .played _ => true

/-- The step of an agent outside the block: it touches the queue of its own port alone. -/
def State.outside (e : External) (s : State F) : State F :=
  match e with
  | .offerWords ws => { s with ctrl := s.ctrl ++ ws }
  | .takeResponse => { s with out := s.out.eraseP Output.isResponse }
  | .offerFrame f => { s with cap := s.cap ++ [f] }
  | .dropFrame k => if s.run = .running then s else { s with cap := s.cap.eraseIdx k }
  | .acceptLevel => { s with out := s.out.eraseP Output.isLevel }
  | .acceptFrame => { s with out := s.out.eraseP Output.isPlayed }

/-- One step of the block: the agent whose turn it is takes its step, or nothing happens where no port holds a
transaction that can be taken. -/
def State.stepBy (frameMax : Option Nat) (meaning : Instr → State F → Result F) (s : State F) : Result F :=
  match s.turn with
  | .idle => .next s
  | .control s' => s'.controlStep meaning
  | .worker s' => s'.workerStep frameMax meaning

/-- One step of the block under the parameters `p` (R6, R9). -/
def stepWith [DecidableEq F] (p : Params F) (s : State F) : Result F := s.stepBy p.frameMax (execWith p)

end Sys2Proof.Machine
end

