-- ==== Sys2Proof/Machine/Dispatch.lean ====
section
/-! DEFINITION. The meaning of every instruction, arm by arm. -/

namespace Sys2Proof.Machine

def exec (i : Instr) (s : State) : Host.Outcome State Fault Refusal :=
  match i with
  | .start ok sr => Sys2Proof.Machine.execStart ok sr s
  | .stop => Sys2Proof.Machine.execStop s
  | .apply p => Sys2Proof.Machine.execApply p s
  | .bqByp u => Sys2Proof.Machine.execBqByp u s
  | .bqPeak u freq gainDb q sampleRate => Sys2Proof.Machine.execBqPeak u freq gainDb q sampleRate s
  | .bqLsh u freq gainDb sampleRate => Sys2Proof.Machine.execBqLsh u freq gainDb sampleRate s
  | .bqHsh u freq gainDb sampleRate => Sys2Proof.Machine.execBqHsh u freq gainDb sampleRate s
  | .bqProc u x => Sys2Proof.Machine.execBqProc u x s
  | .psInit sr => Sys2Proof.Machine.execPsInit sr s
  | .psProc x ratio => Sys2Proof.Machine.execPsProc x ratio s
  | .cbInit u len fb => Sys2Proof.Machine.execCbInit u len fb s
  | .cbProc u x => Sys2Proof.Machine.execCbProc u x s
  | .rvInit sr => Sys2Proof.Machine.execRvInit sr s
  | .rvProc x wet => Sys2Proof.Machine.execRvProc x wet s
  | .ecInit len => Sys2Proof.Machine.execEcInit len s
  | .ecCfg delaySamples mix feedback => Sys2Proof.Machine.execEcCfg delaySamples mix feedback s
  | .ecProc x => Sys2Proof.Machine.execEcProc x s
  | .vpLoad preset => Sys2Proof.Machine.execVpLoad preset s
  | .vmInit sr => Sys2Proof.Machine.execVmInit sr s
  | .vmProc x => Sys2Proof.Machine.execVmProc x s
  | .lmFrame samples => Sys2Proof.Machine.execLmFrame samples s
  | .frame n samples => Sys2Proof.Machine.execFrame n samples s

end Sys2Proof.Machine
end

