-- ==== Sys2Proof/Machine/Step.lean ====
section
/-! DEFINITION. One step of the machine: the agent whose turn it is takes the next transaction of its port and runs
it (spec/48_stream_processor.md R246). -/

namespace Sys2Proof.Machine

/-- One step: one whole operation, or nothing where no port holds one. -/
def step (s : State) : Host.Outcome State Fault Refusal := s.stepBy theParams.frameMax exec

/-- The state with the instruction of these bits offered, so that the very next step runs it (log 9,
log 19). -/
def State.withFetchWord (s : State) (nbits w : Nat) : State := s.offered (tableTransaction nbits w)

end Sys2Proof.Machine
end

