-- ==== Sys2Proof/Safety.lean ====
section
/-! DEFINITION. What claims mean by a good state and a safe run: the domains the spec gives the fields of the
state (spec/10_state.md), its invariants INV-PS and INV-EC, and the outcomes that are not a fault. -/

namespace Sys2Proof.Machine

open Sys2Proof

/-! ## Domains of fields -/

/-- `lo ≤ v ≤ hi`, so `v` is no NaN. -/
def inRange (lo hi v : NUM) : Bool := lo.le v && v.le hi

/-- A 32-bit signed integer. -/
def isI32 (i : Int) : Bool := decide (-(2 ^ 31 : Int) ≤ i) && decide (i < 2 ^ 31)

/-- The domain of SNAP after clamping (R25). -/
def Snapshot.inDomain (n : Snapshot) : Bool :=
  n.eq.toList.all (fun e => isI32 e.freq && e.gainDb.isFinite) &&
    inRange ⟨0x3F000000#32⟩ ⟨0x40000000#32⟩ n.pitchRatio &&
    decide (-12 ≤ n.formantShift) && decide (n.formantShift ≤ 12) &&
    inRange NUM.zero NUM.one n.reverbWet &&
    decide (0 ≤ n.echoDelayMs) && isI32 n.echoDelayMs &&
    inRange NUM.zero ⟨0x3F733333#32⟩ n.echoFeedback &&
    inRange NUM.zero NUM.one n.volume

/-- The domain of ACT while it holds a value (R27). -/
def Active.inDomain (a : Active) : Bool :=
  inRange ⟨0x3F000000#32⟩ ⟨0x40000000#32⟩ a.pitchRatio && inRange NUM.zero NUM.one a.volume &&
    inRange NUM.zero NUM.one a.wet

/-! ## Units -/

/-- The read cursor in `[0, size)`, so no NaN (R30). -/
def PitchShifter.cursorOk (ps : PitchShifter) : Bool := NUM.zero.le ps.r && ps.r.lt (NUM.ofInt ps.size)

/-- INV-PS: the circular distance of the cursors in the closed band (R30; spec/42_pitch_shifter.md R160). -/
def PitchShifter.inBand (ps : PitchShifter) : Bool :=
  inRange (NUM.ofInt ps.minGap) (NUM.ofInt ((ps.size : Int) - ps.minGap))
    (circularDistance Num.binary32 ps.size ps.w ps.r)

/-- The pitch shifter while it is initialised: its integers and, for the sizes whose indices binary32 holds
exactly (log 29), its read cursor and, where the band is not empty (R161), INV-PS. -/
def PitchShifter.ok (ps : PitchShifter) : Bool :=
  decide (2 ≤ ps.size) && decide (ps.minGap = max 64 (2 * ps.size / 5)) && decide (ps.w < ps.size) &&
    (decide (2 ^ 24 < ps.size) || ps.cursorOk && (decide (ps.size < 128) || ps.inBand))

/-- A comb's integers while it is initialised (R31). -/
def Comb.ok (c : Comb) : Bool := decide (1 ≤ c.len) && decide (c.cur < c.len)

/-- The echo line while it is initialised: INV-EC and the domains of its fields (R33). -/
def Echo.ok (ec : Echo) : Bool :=
  decide (ec.cur < ec.len) && decide (ec.d < ec.len) && inRange NUM.zero NUM.one ec.mix &&
    inRange NUM.zero ⟨0x3F733333#32⟩ ec.fb

/-- Every buffer space is in canonical form. -/
def State.memoryWf (s : State) : Bool :=
  s.ps.buf.wf NUM.zero s.ps.size && s.cb.all (fun c => c.buf.wf NUM.zero c.len) && s.ec.buf.wf NUM.zero s.ec.len

/-- What Running means beyond RUN: every unit initialised, a sample rate, active parameters in their domain
(R24, R27, R37). -/
def State.runningOk (s : State) : Bool :=
  s.allInit && decide (1 ≤ s.sr) && decide (s.vm.sr = s.sr) && s.act.inDomain

/-- The invariant of the machine: Starting is not held between operations (R23), SNAP is in its domain, the
buffer spaces are canonical, every initialised unit is in order, and so is Running. -/
abbrev State.Inv (s : State) : Prop :=
  s.run ≠ .starting ∧ s.snap.inDomain = true ∧ s.memoryWf = true ∧
    (s.ps.init = true → s.ps.ok = true) ∧
    (∀ k : Fin 3, (s.cb.get k).init = true → (s.cb.get k).ok = true) ∧
    (s.ec.init = true → s.ec.ok = true) ∧
    (s.run = .running → s.runningOk = true)

/-! ## Safe outcomes -/

/-- The outcome is no fault: no access left a buffer space (R62). -/
def notFault : Host.Outcome State Fault Refusal → Bool
  | .fault _ => false
  | .next _ => true
  | .refused _ => true

/-- The words of a refusal's status (R262): code 0x80 and above. -/
def refusalWord (w : Word) : Bool := w.msb

/-! ## What an uninitialised unit hides -/

/-- The state with the contents of every unit that is not initialised replaced by the reset contents, and in
Stopped SR and ACT too: what is left is all that an operation may depend on (R37). -/
def State.visible (s : State) : State :=
  { s with
    sr := if s.run = .stopped then 0 else s.sr
    act := if s.run = .stopped then Active.none Num.binary32 else s.act
    bq := s.bq.map (fun b => if b.init then b else Biquad.none Num.binary32)
    ps := if s.ps.init then s.ps else PitchShifter.none Num.binary32
    cb := s.cb.map (fun c => if c.init then c else Comb.none Num.binary32)
    ec := if s.ec.init then s.ec else Echo.none Num.binary32
    pc := if s.pc.init then s.pc else PresetConfig.none Num.binary32
    vm := if s.vm.init then s.vm else VoiceModulator.none Num.binary32 }

end Sys2Proof.Machine
end

