-- ==== Sys2Proof/Certificates/Slice0/Obligations.lean ====
section
/-! DEFINITION. The statements for the provers. Constants and tables that a rule prints are written out here
again, so that a statement does not rest on the model's own copy of them. -/

namespace Sys2Proof.Claims

open Sys2Proof Sys2Proof.Machine

/-! ## Words of the statements -/

/-- The state after a response of these two words, nothing else changed (R94). -/
def answered (s : State) (status value : Word) : State := { s with out := s.out ++ [.response status value] }

/-- The state after a command answered OK with the value word 0. -/
def answeredOk (s : State) : State := answered s 0x00000000#32 0#32

/-- `lo ≤ v ≤ hi` (so `v` is no NaN). -/
abbrev within (lo hi v : NUM) : Prop := lo.le v = true ∧ v.le hi = true

/-- The state after a command is taken from CTRL and `rest` is left: what the block holds is untouched, and the
count of the STOPs that a frame has gone past loses a STOP that is taken (log 28, log 30). -/
def commandTaken (s : State) (rest : List Word) : State :=
  { s with ctrl := rest, late := s.late - (stopsOffered s.ctrl - stopsOffered rest) }

/-- The state after a frame is taken from CAP and `rest` is left, with the model's bookkeeping of the arbitration
(log 10, log 28, log 30). -/
def frameTaken (s : State) (rest : List Frame) : State :=
  { s with cap := rest, pick := s.pick + 1, ahead := 0, late := stopsOffered s.ctrl }

/-- What the command at the head of CTRL does, read or answered ERR_ILLEGAL (R66, R263). -/
def commandOutcome (s : State) : Result :=
  match decode s.ctrl with
  | .command i rest => exec i (commandTaken s rest)
  | .illegal _ rest => .next (answered (commandTaken s rest) 0x80000000#32 0#32)
  | .incomplete => .next s

/-- As many steps as there are offers, the words of each offered on CTRL before its step. -/
def offeredRun : List (List Word) → State → Result
  | [], s => .next s
  | ws :: more, s =>
    match step { s with ctrl := s.ctrl ++ ws } with
    | .next t => offeredRun more t
    | .fault f => .fault f
    | .refused r => .refused r

/-- An operation on CTRL: every one but FRAME. -/
def isCommand : Instr → Bool
  | .frame _ _ => false
  | _ => true

/-- A direct unit operation: opcodes 0x10 to 0x60 (R98). -/
def isUnitOperation : Instr → Bool
  | .start _ _ => false
  | .stop => false
  | .apply _ => false
  | .frame _ _ => false
  | _ => true

/-- The payload lengths R103 prints, by opcode and immediate; none for an unassigned opcode. -/
def payloadWords (op imm : Nat) : Option Nat :=
  if op ∈ [0x02, 0x10, 0x50] then some 0
  else if op ∈ [0x01, 0x14, 0x20, 0x31, 0x32, 0x40, 0x42, 0x51, 0x52] then some 1
  else if op ∈ [0x21, 0x30, 0x33] then some 2
  else if op ∈ [0x12, 0x13, 0x41] then some 3
  else if op = 0x11 then some 4
  else if op = 0x03 then some 18
  else if op = 0x60 then some imm
  else none

/-- A field that R105 reserves is not zero in the command word. -/
def reservedBitSet (w : Word) : Bool :=
  let op := (opField w).toNat
  ((op ∉ [0x10, 0x11, 0x12, 0x13, 0x14, 0x30, 0x31]) && unitField w != 0#8) ||
    ((op ∉ [0x01, 0x50, 0x60]) && immField w != 0#16) ||
    ((op = 0x01) && (immField w).extractLsb' 1 15 != 0#15)

/-- Which payload words of a command are of type `F`, by position from 0 (R96). -/
def finitePositions (op : Nat) : List Nat :=
  if op = 0x03 then [1, 3, 5, 7, 9, 10, 13, 15, 16]
  else if op = 0x11 then [0, 1, 2]
  else if op ∈ [0x12, 0x13, 0x21, 0x33] then [0, 1]
  else if op ∈ [0x14, 0x31, 0x42, 0x52] then [0]
  else if op = 0x30 then [1]
  else if op = 0x41 then [1, 2]
  else []

/-- The exponent field of the word is all ones: a NaN or an infinity (R107). -/
def nonFiniteWord (w : Word) : Bool := w.extractLsb' 23 8 == 0xFF#8

/-- The refusal that the table of R268 gives a command, in the priority of R267. The `u` and `imm` columns of
ERR_ILLEGAL are the decoder's. -/
def refusalOf (s : State) : Instr → Option Status
  | .start _ _ => if s.run ≠ .stopped then some .errState else none
  | .stop => none
  | .apply p => if p.wf then none else some .errIllegal
  | .bqByp u => if s.run ≠ .stopped then some .errState else if 8 < u.toNat then some .errRange else none
  | .bqPeak u f g q _ =>
    if ¬(f.isFinite ∧ g.isFinite ∧ q.isFinite) then some .errIllegal
    else if s.run ≠ .stopped then some .errState else if 8 < u.toNat then some .errRange else none
  | .bqLsh u f g _ =>
    if ¬(f.isFinite ∧ g.isFinite) then some .errIllegal
    else if s.run ≠ .stopped then some .errState else if 8 < u.toNat then some .errRange else none
  | .bqHsh u f g _ =>
    if ¬(f.isFinite ∧ g.isFinite) then some .errIllegal
    else if s.run ≠ .stopped then some .errState else if 8 < u.toNat then some .errRange else none
  | .bqProc u x =>
    if ¬x.isFinite then some .errIllegal
    else if s.run ≠ .stopped then some .errState
    else if h : u.toNat < 9 then (if s.bq[u.toNat].init then none else some .errUninit) else some .errRange
  | .psInit sr => if s.run ≠ .stopped then some .errState else if sr.toInt ≤ 0 then some .errRange else none
  | .psProc x r =>
    if ¬(x.isFinite ∧ r.isFinite) then some .errIllegal
    else if s.run ≠ .stopped then some .errState else if ¬s.ps.init then some .errUninit else none
  | .cbInit u len fb =>
    if ¬fb.isFinite then some .errIllegal
    else if s.run ≠ .stopped then some .errState
    else if 2 < u.toNat ∨ len.toInt ≤ 0 then some .errRange else none
  | .cbProc u x =>
    if ¬x.isFinite then some .errIllegal
    else if s.run ≠ .stopped then some .errState
    else if h : u.toNat < 3 then (if s.cb[u.toNat].init then none else some .errUninit) else some .errRange
  | .rvInit sr => if s.run ≠ .stopped then some .errState else if sr.toInt ≤ 0 then some .errRange else none
  | .rvProc x w =>
    if ¬(x.isFinite ∧ w.isFinite) then some .errIllegal
    else if s.run ≠ .stopped then some .errState
    else if ¬(s.cb[0].init ∧ s.cb[1].init ∧ s.cb[2].init) then some .errUninit else none
  | .ecInit len => if s.run ≠ .stopped then some .errState else if len.toInt ≤ 0 then some .errRange else none
  | .ecCfg _ m f =>
    if ¬(m.isFinite ∧ f.isFinite) then some .errIllegal
    else if s.run ≠ .stopped then some .errState else if ¬s.ec.init then some .errUninit else none
  | .ecProc x =>
    if ¬x.isFinite then some .errIllegal
    else if s.run ≠ .stopped then some .errState else if ¬s.ec.init then some .errUninit else none
  | .vpLoad _ => if s.run ≠ .stopped then some .errState else none
  | .vmInit sr => if s.run ≠ .stopped then some .errState else if sr.toInt ≤ 0 then some .errRange else none
  | .vmProc x =>
    if ¬x.isFinite then some .errIllegal
    else if s.run ≠ .stopped then some .errState else if ¬(s.vm.init ∧ s.pc.init) then some .errUninit else none
  | .lmFrame ss => if s.run ≠ .stopped then some .errState else if ss = [] then some .errRange else none
  | .frame _ _ => none

/-- The word of a refusal's status (R262). -/
def codeWord : Status → Word
  | .ok => 0x00000000#32
  | .fail => 0x01000000#32
  | .errIllegal => 0x80000000#32
  | .errState => 0x81000000#32
  | .errUninit => 0x82000000#32
  | .errRange => 0x83000000#32

/-- `clamp(v, lo, hi)` as R12 writes it. -/
def clampTo (lo hi v : NUM) : NUM := if v.lt lo then lo else if hi.lt v then hi else v

/-- `a mod n` as R12 writes it. -/
def modOf (a : NUM) (n : Int) : NUM := a.sub ((NUM.ofInt n).mul (NUM.ofInt (a.div (NUM.ofInt n)).floor))

/-- A value up to the sign of zero. -/
def unsigned (x : NUM) : NUM := if x.isZero then NUM.zero else x

/-- What a section answers to a sequence, and the section after it. -/
def throughSection {F : Type} (N : Num F) (b : Biquad F) (xs : List F) : Biquad F × List F :=
  xs.foldl (fun (p : Biquad F × List F) x => ((p.1.process N x).1, p.2 ++ [(p.1.process N x).2])) (b, [])

/-- Numerator and denominator are equal and `b0` is 1, up to the sign of zero, and from the section's memory every
sequence whose products with the coefficients are finite comes back up to the sign of zero (R130). -/
def transparent (b : Biquad) : Prop :=
  b.b0 = NUM.one ∧ unsigned b.b1 = unsigned b.a1 ∧ b.b2 = b.a2 ∧
  ∀ xs : List NUM,
    (∀ x ∈ xs, x.isFinite = true ∧ (b.b1.mul x).isFinite = true ∧ (b.b2.mul x).isFinite = true) →
    (throughSection Num.binary32 b xs).2.map unsigned = xs.map unsigned

/-- A value through several filters one after the other, each met once. -/
def chain (bq : Vector Biquad 9) (us : List (Fin 9)) (v : NUM) : NUM :=
  us.foldl (fun x u => ((bq.get u).process Num.binary32 x).2) v

/-- The five stored coefficients of six raw ones, the memory cleared (R122 to R124, R126). -/
def designed (rb0 rb1 rb2 ra0 ra1 ra2 : NUM) (mode : BiquadMode) : Biquad :=
  { b0 := rb0.div ra0, b1 := rb1.div ra0, b2 := rb2.div ra0, a1 := ra1.div ra0, a2 := ra2.div ra0,
    z1 := NUM.zero, z2 := NUM.zero, mode := mode, init := true }

/-- The record of R121: `b0 = 1`, everything else 0. -/
def bypassRecord : Biquad :=
  ⟨NUM.one, NUM.zero, NUM.zero, NUM.zero, NUM.zero, NUM.zero, NUM.zero, .bypass, true⟩

/-- The state of a stream with the neutral snapshot: Running, nothing pending, every stage of R245 an
identity, and every buffer word finite. -/
structure NeutralStream (s : State) : Prop where
  inv : s.Inv
  running : s.run = .running
  latched : s.pend = false
  act : s.act = ⟨NUM.one, NUM.one, false, NUM.zero⟩
  filters : ∀ u : Fin 9, 5 ≤ u.val → s.bq.get u = bypassRecord
  preset : s.pc.row = PresetRow.normal Num.binary32
  echo : s.ec.mix = NUM.zero ∧ s.ec.fb = NUM.zero
  finite : ∀ i, (s.ec.buf.read NUM.zero i).isFinite = true

end Sys2Proof.Claims

open Sys2Proof Sys2Proof.Machine Sys2Proof.Claims

/-! ## Encoding -/

/-- R96 to R104: the decoder of a port reads back what the encoder writes, every operand at every value the
encoding admits. -/
def Obligations.DecodeOfEncodeIsIdentity : Prop :=
  ∀ i : Instr, i.wf = true → decodeTransaction (encode i) = some i

/-- R90 to R107: a command that the decoder reads is well formed and its words are its encoding, so each
command has one encoding and no bit of it is dropped. -/
def Obligations.DecodedWordsAreTheEncoding : Prop :=
  ∀ (ws : List Word) (i : Instr) (rest : List Word), decode ws = .command i rest →
    i.wf = true ∧ ∃ cmd, encode i = .ctrl cmd ∧ ws = cmd ++ rest

/-- R103: how many words a command consumes, whether it is read or answered ERR_ILLEGAL. That a command whose
payload is not all offered is not yet read is the model's choice (log 11). -/
def Obligations.PayloadIsConsumedInFull : Prop :=
  ∀ (w : Word) (ws : List Word),
    match payloadWords (opField w).toNat (immField w).toNat with
    | none => ∃ e, decode (w :: ws) = .illegal e ws
    | some k =>
      (ws.length < k → decode (w :: ws) = .incomplete) ∧
      (k ≤ ws.length →
        (∃ i, decode (w :: ws) = .command i (ws.drop k)) ∨ (∃ e, decode (w :: ws) = .illegal e (ws.drop k)))

/-- R106: an unassigned opcode consumes its word alone and is answered ERR_ILLEGAL with the value 0. -/
def Obligations.UnassignedOpcodeIsAnsweredIllegal : Prop :=
  ∀ (s : State) (w : Word) (ws : List Word), s.ctrl = w :: ws → s.frameReady = false →
    payloadWords (opField w).toNat (immField w).toNat = none →
    step s = .next (answered (commandTaken s ws) 0x80000000#32 0#32)

/-- R105: a reserved field, a `B` word or an `S` word that breaks the rule is answered ERR_ILLEGAL after the
whole payload has been consumed, and nothing else changes; the immediate of VP.LOAD may hold any value. -/
def Obligations.ReservedFieldIsAnsweredIllegal : Prop :=
  (∀ (s : State) (w : Word) (ws : List Word) (k : Nat), s.ctrl = w :: ws → s.frameReady = false →
    payloadWords (opField w).toNat (immField w).toNat = some k → k ≤ ws.length →
    (reservedBitSet w = true ∨
      ((opField w).toNat = 0x03 ∧ (ws.getD 12 0#32).extractLsb' 2 30 ≠ 0#30) ∨
      ((opField w).toNat = 0x60 ∧
        ∃ j, j < k ∧ ws.getD j 0#32 ≠ ((ws.getD j 0#32).extractLsb' 0 16).signExtend 32)) →
    step s = .next (answered (commandTaken s (ws.drop k)) 0x80000000#32 0#32)) ∧
  (∀ (imm : BitVec 16) (rest : List Word),
    decode ((0x50#8 ++ 0x00#8 ++ imm : Word) :: rest) = .command (.vpLoad imm) rest)

/-- R107: an `F` word that is a NaN or an infinity makes any command that carries one refused; negative zero is
finite and is accepted. -/
def Obligations.NonFiniteWordIsAnsweredIllegal : Prop :=
  (∀ (s : State) (w : Word) (ws : List Word) (k j : Nat), s.ctrl = w :: ws → s.frameReady = false →
    payloadWords (opField w).toNat (immField w).toNat = some k → k ≤ ws.length →
    j ∈ finitePositions (opField w).toNat → nonFiniteWord (ws.getD j 0#32) = true →
    step s = .next (answered (commandTaken s (ws.drop k)) 0x80000000#32 0#32)) ∧
  nonFiniteWord 0x80000000#32 = false ∧
  ∀ (u : BitVec 8) (rest : List Word),
    decode ((0x14#8 ++ u ++ 0x0000#16 : Word) :: 0x80000000#32 :: rest) = .command (.bqProc u ⟨0x80000000#32⟩) rest

/-- R70: a byte-serial transport carries every word least significant byte first, and what was sent can be
read back. -/
def Obligations.ByteTransportIsLittleEndian : Prop :=
  (∀ w : Word, bytesOfWord w =
    [BitVec.ofNat 8 w.toNat, BitVec.ofNat 8 (w.toNat / 2 ^ 8), BitVec.ofNat 8 (w.toNat / 2 ^ 16),
      BitVec.ofNat 8 (w.toNat / 2 ^ 24)]) ∧
  (∀ h : Half, bytesOfHalf h = [BitVec.ofNat 8 h.toNat, BitVec.ofNat 8 (h.toNat / 2 ^ 8)]) ∧
  (∀ ws : List Word, wordsOfBytes (Transaction.ctrl ws).bytes = ws) ∧
  (∀ f : Frame, frameOfBytes (Transaction.cap f).bytes = some f)

/-- Words that the spec prints beside the command they stand for (R99, R101, R102) are read as it. -/
def Obligations.PrintedWordsAreReadAsPrinted : Prop :=
  decode [0x01000001#32, 0x0000AC44#32] = .command (.start true 44100#32) [] ∧
  decode [0x11000000#32, 0x447A0000#32, 0x40C00000#32, 0x3F800000#32, 0x0000AC44#32] =
    .command (.bqPeak 0#8 ⟨0x447A0000#32⟩ ⟨0x40C00000#32⟩ ⟨0x3F800000#32⟩ 44100#32) [] ∧
  decode [0x14000000#32, 0x3F800000#32] = .command (.bqProc 0#8 ⟨0x3F800000#32⟩) [] ∧
  decode [0x41000000#32, 0x00002958#32, 0x3EB33333#32, 0x3EB33333#32] =
    .command (.ecCfg 10584#32 ⟨0x3EB33333#32⟩ ⟨0x3EB33333#32⟩) [] ∧
  decode [0x50000003#32] = .command (.vpLoad 3#16) [] ∧
  decode [0x60000002#32, 0x00000003#32, 0x00000004#32] = .command (.lmFrame [3#16, 4#16]) [] ∧
  decode [0x60000001#32, 0xFFFFFFFF#32] = .command (.lmFrame [0xFFFF#16]) []

/-! ## The step -/

/-- R66, R75: where no frame can be taken, a step runs the command at the head of CTRL, taken off the port;
where no command is whole, it runs the frame at the head of CAP. That the worker goes on over a command whose
payload is not all offered is the model's choice (log 11). -/
def Obligations.StepRunsTheDecodedInstruction : Prop :=
  (∀ (s : State) (i : Instr) (rest : List Word), s.frameReady = false → decode s.ctrl = .command i rest →
    step s = exec i (commandTaken s rest)) ∧
  (∀ (s : State) (f : Frame) (rest : List Frame), s.commandReady = false → s.run = .running → s.cap = f :: rest →
    f.wf = true → step s = exec (.frame f.count f.samples) (frameTaken s rest))

/-- R246, R247, R14: where a command, read or answered ERR_ILLEGAL, and a frame are both ready, the step is one of
the two; which one is free (log 10), but past a STOP that is offered no second frame goes (log 28; which frames count
for which of several STOPs is the model's choice, log 30); and however many commands are offered on, a frame that can
be taken is taken after at most the free number of commands, unless a STOP comes first. -/
def Obligations.EitherAgentMayGoFirst : Prop :=
  (∀ (s : State) (f : Frame) (frest : List Frame), s.commandReady = true → s.run = .running → s.cap = f :: frest →
    f.wf = true →
    let command := commandOutcome { s with ahead := s.ahead + 1 }
    let frame := exec (.frame f.count f.samples) (frameTaken s frest)
    (step s = command ∨ step s = frame) ∧
    (s.late ≠ 0 → stopsOffered s.ctrl ≠ 0 → step s = command) ∧
    (s.late = 0 ∨ stopsOffered s.ctrl = 0 → Config.commandsFirst s.pick ≤ s.ahead → step s = frame)) ∧
  (∀ (s : State) (f : Frame) (frest : List Frame) (offers : List (List Word)), s.Inv → s.run = .running →
    s.late = 0 → s.cap = f :: frest → f.wf = true → Config.commandsFirst s.pick - s.ahead < offers.length →
    ∃ k t, k ≤ offers.length ∧ offeredRun (offers.take k) s = .next t ∧ (t.cap = frest ∨ t.run = .stopped))

/-- R244: while RUN is not 2 a frame offered on CAP is not consumed, no level event and no output frame come out,
and a step without a command changes nothing. That a command whose payload is not all offered is not yet a command
to take is the model's choice (log 11). -/
def Obligations.FramesWaitWhileNotRunning : Prop :=
  (∀ s : State, s.run ≠ .running → s.commandReady = false → step s = .next s) ∧
  (∀ (s t : State), s.run ≠ .running → step s = .next t →
    t.cap = s.cap ∧ (t.out = s.out ∨ ∃ st v, t.out = s.out ++ [.response st v])) ∧
  (∀ (n : Word) (ss : List Half) (s : State), s.run ≠ .running → exec (.frame n ss) s = .next s)

/-! ## Refusals and responses -/

/-- R267, R268: each command is refused exactly in the cases of the table, with the status the priority gives,
and a refused command changes nothing but the response. -/
def Obligations.RefusalsFollowTheTable : Prop :=
  ∀ (i : Instr) (s : State),
    (∀ e, refusalOf s i = some e → exec i s = .next (answered s (codeWord e) 0#32)) ∧
    (∀ t st v, refusalOf s i = none → exec i s = .next t → t.out = s.out ++ [.response st v] →
      st = 0x00000000#32 ∨ st = 0x01000000#32)

/-- R262: a response whose status is a refusal means that no state has changed. -/
def Obligations.RefusedCommandChangesNothing : Prop :=
  ∀ (i : Instr) (s t : State) (st v : Word), exec i s = .next t → t.out = s.out ++ [.response st v] →
    0x80 ≤ (st.extractLsb' 24 8).toNat → v = 0#32 ∧ t = answered s st v

/-- R94: a command that completes or is refused emits exactly one response, whose status word has zeros below
its code; FRAME emits none. -/
def Obligations.EveryCommandAnswersOnce : Prop :=
  ∀ (i : Instr) (s t : State), exec i s = .next t →
    (isCommand i = true → ∃ st v, t.out = s.out ++ [.response st v] ∧ st.extractLsb' 0 24 = 0#24) ∧
    (isCommand i = false → ∀ st v, ∃ l, t.out = s.out ++ l ∧ Output.response st v ∉ l)

/-- R98: outside Stopped every direct unit operation with well-formed operands is refused with ERR_STATE and
changes nothing. -/
def Obligations.UnitOperationsNeedStopped : Prop :=
  ∀ (i : Instr) (s : State), isUnitOperation i = true → i.wf = true → s.run ≠ .stopped →
    exec i s = .next (answered s 0x81000000#32 0#32)

/-! ## Control commands -/

/-- R231 with R156, R173, R174, R186, R211, R240: a START that succeeds, every field it leaves. The read cursor is
R156's `(0 − minGap) mod size`; where R291 prints `size − minGap` the two differ for sample rates below 32, and the
model's choice is R156 (log 21). -/
def Obligations.StartCreatesEveryUnit : Prop :=
  ∀ (s : State) (sr : Word), s.run = .stopped → 0 < sr.toInt →
    let n := sr.toInt.toNat
    let row := presetRow theParams s.snap.voicePreset
    ∃ t, exec (.start true sr) s = .next t ∧
      t.run = .running ∧ t.sr = sr.toInt ∧ t.snap = s.snap ∧ t.pend = false ∧
      t.ps.size = 2 * n ∧ t.ps.minGap = max 64 (4 * n / 5) ∧ t.ps.w = 0 ∧
      t.ps.r = NUM.ofInt ((0 - (t.ps.minGap : Int)) % (t.ps.size : Int)) ∧ (∀ i, t.ps.buf.read NUM.zero i = NUM.zero) ∧
      t.ps.init = true ∧
      t.cb = #v[⟨max 1 ((2 * 297 * n + 10000) / 20000), ⟨0x3F47AE14#32⟩, 0, [], true⟩,
        ⟨max 1 ((2 * 371 * n + 10000) / 20000), ⟨0x3F400000#32⟩, 0, [], true⟩,
        ⟨max 1 ((2 * 411 * n + 10000) / 20000), ⟨0x3F333333#32⟩, 0, [], true⟩] ∧
      t.ec = derivedEcho theParams ⟨2 * n + 1, 0, 0, NUM.zero, NUM.zero, [], true⟩ s.snap row sr.toInt ∧
      t.vm = ⟨NUM.zero, NUM.zero, NUM.zero, sr.toInt, true⟩ ∧
      t.pc = ⟨row, true⟩ ∧ t.bq = derivedBank theParams s.snap row sr.toInt ∧
      (∀ u : Fin 9, (t.bq.get u).z1 = NUM.zero ∧ (t.bq.get u).z2 = NUM.zero ∧ (t.bq.get u).init = true) ∧
      t.act = ⟨s.snap.pitchRatio, s.snap.volume, derivedEqOn theParams s.snap, derivedWet theParams s.snap row⟩ ∧
      t.ctrl = s.ctrl ∧ t.cap = s.cap ∧ t.pick = s.pick ∧ t.ahead = s.ahead ∧ t.late = s.late ∧
      t.out = s.out ++ [.response 0x00000000#32 1#32]

/-- R231: with no endpoints, or a sample rate that is not positive, START in Stopped completes with FAIL and
leaves the state as it was. -/
def Obligations.StartFailsWithoutEndpointOrRate : Prop :=
  ∀ (s : State) (ok : Bool) (sr : Word), s.run = .stopped → (ok = false ∨ sr.toInt ≤ 0) →
    exec (.start ok sr) s = .next (answered s 0x01000000#32 0#32)

/-- R233, R292: STOP completes in every run state, keeps SNAP and PEND, and otherwise leaves the reset state.
That a field without a value stands at its reset value is the model's choice (log 6, log 7). -/
def Obligations.StopKeepsOnlyTheSnapshot : Prop :=
  ∀ s : State, exec .stop s = .next
    { State.reset with
      snap := s.snap, pend := s.pend, ctrl := s.ctrl, cap := s.cap, pick := s.pick, ahead := s.ahead, late := s.late,
      out := s.out ++ [.response 0x00000000#32 0#32] }

/-- R234, R235: APPLY in any run state publishes the clamped snapshot, sets PEND and touches nothing else. -/
def Obligations.ApplyPublishesTheClampedSnapshot : Prop :=
  ∀ (s : State) (p : DspParameters), p.wf = true →
    ∃ n : Snapshot, exec (.apply p) s = .next (answeredOk { s with snap := n, pend := true }) ∧
      (∀ k : Fin 5, n.eq.get k = ⟨(p.eq.get k).freq.toInt, (p.eq.get k).gainDb⟩) ∧
      n.pitchRatio = clampTo ⟨0x3F000000#32⟩ ⟨0x40000000#32⟩ p.pitchRatio ∧
      n.formantShift = max (-12) (min 12 p.formantShift.toInt) ∧
      n.reverbEnabled = p.reverbEnabled ∧ n.echoEnabled = p.echoEnabled ∧
      n.reverbWet = clampTo NUM.zero NUM.one p.reverbWet ∧
      n.echoDelayMs = max p.echoDelayMs.toInt 0 ∧
      n.echoFeedback = clampTo NUM.zero ⟨0x3F733333#32⟩ p.echoFeedback ∧
      n.volume = clampTo NUM.zero NUM.one p.volume ∧
      (n.voicePreset.code.val : Int) =
        if 0 ≤ p.voicePreset.toInt ∧ p.voicePreset.toInt ≤ 5 then p.voicePreset.toInt else 0

/-! ## Biquad -/

/-- R121, R127: BQ.BYP, and the three designs with a frequency or a sample rate that is not positive, store the
bypass record in their instance and change nothing else. -/
def Obligations.BypassIsStored : Prop :=
  ∀ (s : State) (u : BitVec 8) (hu : u.toNat < 9), s.run = .stopped →
    let t := answeredOk { s with bq := s.bq.set u.toNat bypassRecord }
    exec (.bqByp u) s = .next t ∧
    ∀ (f g q : NUM) (sr : Word), f.isFinite = true → g.isFinite = true → q.isFinite = true →
      (f.le NUM.zero = true ∨ sr.toInt ≤ 0) →
      exec (.bqPeak u f g q sr) s = .next t ∧ exec (.bqLsh u f g sr) s = .next t ∧
      exec (.bqHsh u f g sr) s = .next t

/-- R122, R126: BQ.PEAK stores the peaking design in its instance and changes nothing else. -/
def Obligations.PeakingDesignIsStored : Prop :=
  ∀ (s : State) (u : BitVec 8) (hu : u.toNat < 9) (f g q : NUM) (sr : Word), s.run = .stopped →
    f.isFinite = true → g.isFinite = true → q.isFinite = true → f.le NUM.zero = false → 0 < sr.toInt →
    let qe := if q.lt ⟨0x3DCCCCCD#32⟩ then ⟨0x3DCCCCCD#32⟩ else q
    let w := (((NUM.ofInt 2).mul NUM.pi).mul f).div (NUM.ofInt sr.toInt)
    let a := (g.div (NUM.ofInt 40)).pow10
    let alpha := w.sin.div ((NUM.ofInt 2).mul qe)
    let c := w.cos
    let b := designed (NUM.one.add (alpha.mul a)) ((NUM.ofInt (-2)).mul c) (NUM.one.sub (alpha.mul a))
      (NUM.one.add (alpha.div a)) ((NUM.ofInt (-2)).mul c) (NUM.one.sub (alpha.div a)) .peaking
    exec (.bqPeak u f g q sr) s = .next (answeredOk { s with bq := s.bq.set u.toNat b })

/-- R123, R124, R126, R128: BQ.LSH and BQ.HSH store the shelving designs of slope 1 in their instance and change
nothing else. -/
def Obligations.ShelvingDesignsAreStored : Prop :=
  ∀ (s : State) (u : BitVec 8) (hu : u.toNat < 9) (f g : NUM) (sr : Word), s.run = .stopped →
    f.isFinite = true → g.isFinite = true → f.le NUM.zero = false → 0 < sr.toInt →
    let two := NUM.ofInt 2
    let minusTwo := NUM.ofInt (-2)
    let w := ((two.mul NUM.pi).mul f).div (NUM.ofInt sr.toInt)
    let a := (g.div (NUM.ofInt 40)).pow10
    let c := w.cos
    let alpha := (w.sin.div two).mul two.sqrt
    let k := (two.mul a.sqrt).mul alpha
    let ap := a.add NUM.one
    let am := a.sub NUM.one
    let low := designed (a.mul ((ap.sub (am.mul c)).add k)) ((two.mul a).mul (am.sub (ap.mul c)))
      (a.mul ((ap.sub (am.mul c)).sub k))
      ((ap.add (am.mul c)).add k) (minusTwo.mul (am.add (ap.mul c))) ((ap.add (am.mul c)).sub k) .lowShelf
    let high := designed (a.mul ((ap.add (am.mul c)).add k)) ((minusTwo.mul a).mul (am.add (ap.mul c)))
      (a.mul ((ap.add (am.mul c)).sub k))
      ((ap.sub (am.mul c)).add k) (two.mul (am.sub (ap.mul c))) ((ap.sub (am.mul c)).sub k) .highShelf
    exec (.bqLsh u f g sr) s = .next (answeredOk { s with bq := s.bq.set u.toNat low }) ∧
    exec (.bqHsh u f g sr) s = .next (answeredOk { s with bq := s.bq.set u.toNat high })

/-- R125: BQ.PROC answers `y = b0·x + z1`, writes the two memory words of its instance from the old ones, and
changes nothing else. -/
def Obligations.BiquadProcessesOneSample : Prop :=
  ∀ (s : State) (u : BitVec 8) (hu : u.toNat < 9) (x : NUM), s.run = .stopped → x.isFinite = true →
    s.bq[u.toNat].init = true →
    let b := s.bq[u.toNat]
    let y := (b.b0.mul x).add b.z1
    let b' := { b with z1 := ((b.b1.mul x).sub (b.a1.mul y)).add b.z2, z2 := (b.b2.mul x).sub (b.a2.mul y) }
    exec (.bqProc u x) s = .next (answered { s with bq := s.bq.set u.toNat b' } 0x00000000#32 y.bits)

/-- R129: over every carrier that keeps the laws of R10 (as log 32 reads them) a section in bypass answers every finite
input of a sequence with its value, up to the sign of zero, and keeps its memory zero. So it does over the default
carrier, where an input that holds no negative zero comes back bit for bit and the record stays as it was. -/
def Obligations.BypassIsTheIdentity : Prop :=
  (∀ (F : Type) (N : Num F) (xs : List F), N.Lawful → (∀ x ∈ xs, N.isFinite x = true) →
    let r := throughSection N (Biquad.bypassed N) xs
    List.Forall₂ N.same r.2 xs ∧ N.isZero r.1.z1 = true ∧ N.isZero r.1.z2 = true) ∧
  ∀ xs : List NUM, (∀ x ∈ xs, x.isFinite = true) →
    let r := throughSection Num.binary32 bypassRecord xs
    r.2.map unsigned = xs.map unsigned ∧ r.1.z1.isZero = true ∧ r.1.z2.isZero = true ∧
    { r.1 with z1 := NUM.zero, z2 := NUM.zero } = bypassRecord ∧
    ((∀ x ∈ xs, x.bits ≠ 0x80000000#32) → r = (bypassRecord, xs))

/-- R130: a peaking design of 0 dB whose `ra0` is finite and not zero has `b0 = 1`, `b1 = a1` and `b2 = a2`; so has
each shelving design of 0 dB, up to the sign of zero, whose own `ra0`, which is `2 ± 0·cos(w) + k` there, is finite
and not zero; and from zero memory, as it is stored, each answers every sequence, whose products with its coefficients
are finite, with its input up to the sign of zero. Nothing is assumed of the cosine (R9): the statement holds with
any function in its place. A gain of negative zero is 0 dB too. -/
def Obligations.PeakingAtZeroGainIsTransparent : Prop :=
  ∀ (cos : NUM → NUM) (f g q : NUM) (sr : Int), f.isFinite = true → q.isFinite = true → g.isZero = true →
    f.le NUM.zero = false → 0 < sr →
    let p : Params := { theParams with cos := cos }
    let w := (((NUM.ofInt 2).mul NUM.pi).mul f).div (NUM.ofInt sr)
    let qe := if q.lt ⟨0x3DCCCCCD#32⟩ then ⟨0x3DCCCCCD#32⟩ else q
    let two := NUM.ofInt 2
    let k := (two.mul NUM.one).mul ((w.sin.div two).mul two.sqrt)
    let peakRa0 := NUM.one.add (w.sin.div (two.mul qe))
    let lowRa0 := (two.add (NUM.zero.mul (cos w))).add k
    let highRa0 := (two.sub (NUM.zero.mul (cos w))).add k
    let peak := Biquad.peaking p f g q sr
    (peakRa0.isFinite = true → peakRa0.isZero = false → peak.b1 = peak.a1 ∧ transparent peak) ∧
    (lowRa0.isFinite = true → lowRa0.isZero = false → transparent (Biquad.lowShelf p f g sr)) ∧
    (highRa0.isFinite = true → highRa0.isZero = false → transparent (Biquad.highShelf p f g sr))

/-! ## Pitch shifter -/

/-- R156: PS.INIT sizes the shifter to two seconds, anchors its read cursor and clears its buffer; nothing else
changes. -/
def Obligations.PitchShifterIsCreated : Prop :=
  ∀ (s : State) (sr : Word), s.run = .stopped → 0 < sr.toInt →
    let size := 2 * sr.toInt.toNat
    let minGap := max 64 (2 * size / 5)
    exec (.psInit sr) s = .next (answeredOk { s with ps :=
      { size := size, minGap := minGap, w := 0, r := NUM.ofInt ((0 - (minGap : Int)) % (size : Int)), buf := [],
        init := true } })

/-- R157: PS.PROC. The input is stored at the write cursor, every other word is unchanged, the write cursor
advances; inside the dead-band the input is returned and the read cursor re-anchored; outside it the
interpolated word at the old read cursor is returned, and the read cursor advances by the ratio, wraps by one
subtraction and is re-anchored if it leaves the band. Nothing outside PS changes. R159 takes `floor(r)` for an index
in range; that any `r` is reduced by the size is the model's choice, from R62 (log 13). -/
def Obligations.PitchShifterProcessesOneSample : Prop :=
  ∀ (s : State) (x ratio : NUM), s.run = .stopped → x.isFinite = true → ratio.isFinite = true →
    s.ps.init = true → s.ps.w < s.ps.size → s.ps.buf.wf NUM.zero s.ps.size = true →
    let size := s.ps.size
    let rc := clampTo ⟨0x3F000000#32⟩ ⟨0x40000000#32⟩ ratio
    let w := (s.ps.w + 1) % size
    let home := NUM.ofInt (((w : Int) - s.ps.minGap) % (size : Int))
    ∃ (buf : Memory) (r y : NUM),
      exec (.psProc x ratio) s = .next (answered { s with ps := { s.ps with buf := buf, w := w, r := r } }
        0x00000000#32 y.bits) ∧
      buf.read NUM.zero s.ps.w = x ∧ (∀ i, i ≠ s.ps.w → buf.read NUM.zero i = s.ps.buf.read NUM.zero i) ∧
      (if NUM.lt ⟨0x3CA3D70A#32⟩ (rc.sub NUM.one).abs then
        let i0 := (s.ps.r.floor % (size : Int)).toNat
        let frac := s.ps.r.sub (NUM.ofInt s.ps.r.floor)
        let r1 := s.ps.r.add rc
        let r2 := if (NUM.ofInt size).le r1 then r1.sub (NUM.ofInt size) else r1
        let dist := modOf ((NUM.ofInt w).sub r2) size
        y = ((buf.read NUM.zero i0).mul (NUM.one.sub frac)).add ((buf.read NUM.zero ((i0 + 1) % size)).mul frac) ∧
        r = if dist.lt (NUM.ofInt s.ps.minGap) || (NUM.ofInt ((size : Int) - s.ps.minGap)).lt dist then home else r2
      else y = x ∧ r = home)

/-- R158: for a buffer of at most 2^24 words the distance of an anchored read cursor from the write cursor is
exactly `minGap`. -/
def Obligations.AnchorIsMinGapAway : Prop :=
  ∀ size w minGap : Nat, size ≤ 2 ^ 24 → w < size → minGap < size →
    circularDistance Num.binary32 size w (anchor Num.binary32 size w minGap) = NUM.ofInt minGap

/-- R160: for a sample rate from 64 to 2^23 every PS.PROC, from a read cursor in `[0, size)` (R30), leaves the
distance of the cursors in the closed band from `minGap` to `size − minGap`, and the read cursor in `[0, size)`
again; and PS.INIT leaves both so. -/
def Obligations.PitchDistanceStaysInTheBand : Prop :=
  let inOrder (p : PitchShifter) : Prop := NUM.zero.le p.r = true ∧ p.r.lt (NUM.ofInt p.size) = true
  let inBand (p : PitchShifter) : Prop :=
    within (NUM.ofInt p.minGap) (NUM.ofInt ((p.size : Int) - p.minGap))
      (circularDistance Num.binary32 p.size p.w p.r)
  (∀ (p p' : PitchShifter) (x ratio y : NUM), 128 ≤ p.size → p.size ≤ 2 ^ 24 →
    p.minGap = max 64 (2 * p.size / 5) → inOrder p → p.process theParams x ratio = .ok (p', y) →
    p'.size = p.size ∧ p'.minGap = p.minGap ∧ inOrder p' ∧ inBand p') ∧
  (∀ sr : Int, 64 ≤ sr → sr ≤ 2 ^ 23 →
    inOrder (PitchShifter.created theParams sr) ∧ inBand (PitchShifter.created theParams sr))

/-! ## Comb and reverb -/

/-- R171, R173, R174: CB.INIT and RV.INIT create combs with cleared buffers; the lengths of RV.INIT are the exact
rationals rounded with ties away from zero, at least 1. Nothing else changes. -/
def Obligations.CombsAreCreated : Prop :=
  (∀ (s : State) (u : BitVec 8) (hu : u.toNat < 3) (len : Word) (fb : NUM), s.run = .stopped → fb.isFinite = true →
    0 < len.toInt →
    exec (.cbInit u len fb) s = .next (answeredOk
      { s with cb := s.cb.set u.toNat ⟨len.toInt.toNat, fb, 0, [], true⟩ })) ∧
  (∀ (s : State) (sr : Word), s.run = .stopped → 0 < sr.toInt →
    let n := sr.toInt.toNat
    exec (.rvInit sr) s = .next (answeredOk { s with cb :=
      #v[⟨max 1 ((2 * 297 * n + 10000) / 20000), ⟨0x3F47AE14#32⟩, 0, [], true⟩,
        ⟨max 1 ((2 * 371 * n + 10000) / 20000), ⟨0x3F400000#32⟩, 0, [], true⟩,
        ⟨max 1 ((2 * 411 * n + 10000) / 20000), ⟨0x3F333333#32⟩, 0, [], true⟩] }))

/-- R172: CB.PROC answers the word at the cursor, stores `x + out·fb` there and advances the cursor; every other
word, and everything outside its comb, is unchanged. -/
def Obligations.CombProcessesOneSample : Prop :=
  ∀ (s : State) (u : BitVec 8) (hu : u.toNat < 3) (x : NUM), s.run = .stopped → x.isFinite = true →
    let c := s.cb[u.toNat]
    c.init = true → c.cur < c.len → c.buf.wf NUM.zero c.len = true →
    let out := c.buf.read NUM.zero c.cur
    ∃ buf : Memory,
      exec (.cbProc u x) s = .next (answered
        { s with cb := s.cb.set u.toNat { c with buf := buf, cur := (c.cur + 1) % c.len } } 0x00000000#32 out.bits) ∧
      buf.read NUM.zero c.cur = x.add (out.mul c.fb) ∧ (∀ i, i ≠ c.cur → buf.read NUM.zero i = c.buf.read NUM.zero i)

/-- R172: a fresh comb is silent for as many calls as it is long, whatever it is given. -/
def Obligations.FreshCombIsSilentForItsLength : Prop :=
  ∀ (len : Nat) (fb : NUM) (xs : List NUM), 0 < len → xs.length ≤ len →
    ∃ c ys, xs.foldlM (fun (p : Comb × List NUM) x => (p.1.process Num.binary32 x).map (fun q => (q.1, p.2 ++ [q.2])))
        ((⟨len, fb, 0, [], true⟩ : Comb), ([] : List NUM)) = (Except.ok (c, ys) : Except Fault (Comb × List NUM)) ∧
      ys = List.replicate xs.length NUM.zero

/-- R175, R177: RV.PROC with a wetness of at most 0 answers its input and steps no comb; nothing changes. -/
def Obligations.DryReverbIsTransparent : Prop :=
  ∀ (s : State) (x wet : NUM), s.run = .stopped → x.isFinite = true → wet.isFinite = true →
    (∀ k : Fin 3, (s.cb.get k).init = true) → wet.le NUM.zero = true →
    exec (.rvProc x wet) s = .next (answered s 0x00000000#32 x.bits)

/-- R175: RV.PROC with a wetness above 0 steps the three combs with the dry input and mixes it with the mean of
their outputs; each comb stores at its own cursor, every other word is unchanged, and so is everything outside
the combs. -/
def Obligations.WetReverbMixesTheMean : Prop :=
  ∀ (s : State) (x wet : NUM), s.run = .stopped → x.isFinite = true → wet.isFinite = true →
    (∀ k : Fin 3, (s.cb.get k).init = true ∧ (s.cb.get k).cur < (s.cb.get k).len ∧
      (s.cb.get k).buf.wf NUM.zero (s.cb.get k).len = true) →
    wet.le NUM.zero = false →
    let out (k : Fin 3) := (s.cb.get k).buf.read NUM.zero (s.cb.get k).cur
    let we := clampTo NUM.zero NUM.one wet
    let mean := (((out 0).add (out 1)).add (out 2)).div (NUM.ofInt 3)
    ∃ cb : Vector Comb 3,
      exec (.rvProc x wet) s = .next (answered { s with cb := cb } 0x00000000#32
        ((x.mul (NUM.one.sub we)).add (we.mul mean)).bits) ∧
      ∀ k : Fin 3,
        (cb.get k).len = (s.cb.get k).len ∧ (cb.get k).fb = (s.cb.get k).fb ∧ (cb.get k).init = true ∧
        (cb.get k).cur = ((s.cb.get k).cur + 1) % (s.cb.get k).len ∧
        (cb.get k).buf.read NUM.zero (s.cb.get k).cur = x.add ((out k).mul (s.cb.get k).fb) ∧
        ∀ i, i ≠ (s.cb.get k).cur → (cb.get k).buf.read NUM.zero i = (s.cb.get k).buf.read NUM.zero i

/-! ## Echo -/

/-- R186: EC.INIT creates the line with the given length, cleared; nothing else changes. -/
def Obligations.EchoLineIsCreated : Prop :=
  ∀ (s : State) (len : Word), s.run = .stopped → 0 < len.toInt →
    exec (.ecInit len) s = .next (answeredOk
      { s with ec := ⟨len.toInt.toNat, 0, 0, NUM.zero, NUM.zero, [], true⟩ })

/-- R187: EC.CFG without growth keeps the contents and the cursor; with growth the length becomes one and a half
times the delay, and more than it, the contents zero and the cursor 0. The mix and the feedback are clamped.
Nothing outside EC changes. -/
def Obligations.EchoLineIsConfigured : Prop :=
  ∀ (s : State) (delay : Word) (mix fb : NUM), s.run = .stopped → mix.isFinite = true → fb.isFinite = true →
    s.ec.init = true →
    let d := (max delay.toInt 0).toNat
    let m := clampTo NUM.zero NUM.one mix
    let f := clampTo NUM.zero ⟨0x3F733333#32⟩ fb
    exec (.ecCfg delay mix fb) s = .next (answeredOk { s with ec :=
      if s.ec.len ≤ d then ⟨max (3 * d / 2) (d + 1), 0, d, m, f, [], true⟩
      else { s.ec with d := d, mix := m, fb := f } })

/-- R190, R192: after any EC.CFG that is not refused, whatever was requested, the delay is below the length and
the feedback and the mix are in their closed ranges. -/
def Obligations.EchoDelayStaysBelowLength : Prop :=
  ∀ (s t : State) (delay : Word) (mix fb : NUM), exec (.ecCfg delay mix fb) s = .next t → mix.isFinite = true →
    fb.isFinite = true → s.run = .stopped → s.ec.init = true →
    t.ec.d < t.ec.len ∧ s.ec.len ≤ t.ec.len ∧ within NUM.zero ⟨0x3F733333#32⟩ t.ec.fb ∧
    within NUM.zero NUM.one t.ec.mix

/-- R188: EC.PROC reads the word `d` behind the cursor, answers the mix, stores `x + dl·fb` at the cursor and
advances it; every other word, and everything outside EC, is unchanged. R191: over every carrier that keeps the laws
of R10 (as log 32 reads them) a mix of zero answers every finite input with its value, up to the sign of zero, while
the words of the line are finite. -/
def Obligations.EchoProcessesOneSample : Prop :=
  (∀ (s : State) (x : NUM), s.run = .stopped → x.isFinite = true → s.ec.init = true → s.ec.cur < s.ec.len →
    s.ec.buf.wf NUM.zero s.ec.len = true →
    let dl := s.ec.buf.read NUM.zero ((((s.ec.cur : Int) - s.ec.d) % (s.ec.len : Int)).toNat)
    ∃ buf : Memory,
      exec (.ecProc x) s = .next (answered
        { s with ec := { s.ec with buf := buf, cur := (s.ec.cur + 1) % s.ec.len } }
        0x00000000#32 ((x.mul (NUM.one.sub s.ec.mix)).add (dl.mul s.ec.mix)).bits) ∧
      buf.read NUM.zero s.ec.cur = x.add (dl.mul s.ec.fb) ∧
      (∀ i, i ≠ s.ec.cur → buf.read NUM.zero i = s.ec.buf.read NUM.zero i)) ∧
  ∀ (F : Type) [DecidableEq F] (N : Num F) (ec : Echo F) (x : F), N.Lawful → ec.cur < ec.len →
    N.isZero ec.mix = true → N.isFinite x = true → (∀ i, N.isFinite (ec.buf.read N.zero i) = true) →
    ∃ ec' y, ec.process N x = .ok (ec', y) ∧ N.same y x

/-! ## Voice -/

/-- R201, R202, R203: VP.LOAD of a code loads its row of the table, a code above 5 the Normal row; nothing read,
nothing else changed. -/
def Obligations.PresetRowIsLoaded : Prop :=
  ∀ (s : State) (c : BitVec 16), s.run = .stopped →
    let row : PresetRow :=
      if c = 1#16 then ⟨NUM.zero, NUM.zero, ⟨0x3CA3D70A#32⟩, ⟨0x40A00000#32⟩, NUM.zero, NUM.zero, ⟨0x3E4CCCCD#32⟩,
        NUM.zero, NUM.zero, NUM.zero, ⟨0xC0000000#32⟩, ⟨0x40400000#32⟩⟩
      else if c = 2#16 then ⟨⟨0x3DCCCCCD#32⟩, ⟨0x42F00000#32⟩, ⟨0x3D75C28F#32⟩, ⟨0x40D00000#32⟩, NUM.zero, NUM.zero,
        NUM.zero, ⟨0x42B40000#32⟩, ⟨0x3E800000#32⟩, ⟨0x3E4CCCCD#32⟩, NUM.zero, ⟨0x3FC00000#32⟩⟩
      else if c = 3#16 then ⟨⟨0x3F266666#32⟩, ⟨0x425C0000#32⟩, NUM.zero, NUM.zero, ⟨0x3F19999A#32⟩, NUM.zero,
        ⟨0x3EB33333#32⟩, ⟨0x43520000#32⟩, ⟨0x3EB33333#32⟩, ⟨0x3EE66666#32⟩, ⟨0x40000000#32⟩, NUM.zero⟩
      else if c = 4#16 then ⟨NUM.zero, NUM.zero, NUM.zero, NUM.zero, NUM.zero, NUM.zero, ⟨0x3DF5C28F#32⟩, NUM.zero,
        NUM.zero, NUM.zero, ⟨0x40A00000#32⟩, ⟨0xC0800000#32⟩⟩
      else if c = 5#16 then ⟨⟨0x3EB33333#32⟩, ⟨0x43D20000#32⟩, NUM.zero, NUM.zero, NUM.zero, ⟨0x3F333333#32⟩,
        ⟨0x3E800000#32⟩, ⟨0x43340000#32⟩, ⟨0x3E99999A#32⟩, ⟨0x3E99999A#32⟩, NUM.zero, ⟨0x40000000#32⟩⟩
      else ⟨NUM.zero, NUM.zero, NUM.zero, NUM.zero, NUM.zero, NUM.zero, NUM.zero, NUM.zero, NUM.zero, NUM.zero,
        NUM.zero, NUM.zero⟩
    exec (.vpLoad c) s = .next (answeredOk { s with pc := ⟨row, true⟩ })

/-- R211: VM.INIT clears the three phases and takes the sample rate; nothing else changes. -/
def Obligations.VoiceModulatorIsCreated : Prop :=
  ∀ (s : State) (sr : Word), s.run = .stopped → 0 < sr.toInt →
    exec (.vmInit sr) s = .next (answeredOk { s with vm := ⟨NUM.zero, NUM.zero, NUM.zero, sr.toInt, true⟩ })

/-- R212, R213: VM.PROC applies tremolo, ring modulation, distortion and phase warp in this order, each only
where its amount is above 0; a phase is used before it is stepped, and only a stage that is on steps its phase.
Nothing outside VM changes. -/
def Obligations.VoiceModulatorProcessesOneSample : Prop :=
  ∀ (s : State) (x : NUM), s.run = .stopped → x.isFinite = true → s.vm.init = true → s.pc.init = true →
    let row := s.pc.row
    let on (a : NUM) : Bool := NUM.zero.lt a
    let twoPi := (NUM.ofInt 2).mul NUM.pi
    let phase (ph rate : NUM) : NUM :=
      let q := ph.add ((twoPi.mul rate).div (NUM.ofInt s.vm.sr))
      if twoPi.le q then q.sub twoPi else q
    let v2 := if on row.vibratoDepth then x.mul (NUM.one.add (row.vibratoDepth.mul s.vm.phT.sin)) else x
    let v3 := if on row.ringMix then
        ((NUM.one.sub row.ringMix).mul v2).add (row.ringMix.mul (v2.mul s.vm.phR.sin)) else v2
    let v4 := if on row.distortionAmount then
        (v3.mul (NUM.one.add (row.distortionAmount.mul (NUM.ofInt 6)))).tanh else v3
    let v5 := if on row.phaseDistortionAmount then
        (v4.mul (NUM.one.add (row.phaseDistortionAmount.mul s.vm.phW.sin))).sin else v4
    exec (.vmProc x) s = .next (answered
      { s with vm :=
        { s.vm with
          phT := if on row.vibratoDepth then phase s.vm.phT row.vibratoRateHz else s.vm.phT
          phR := if on row.ringMix then phase s.vm.phR row.ringFrequencyHz else s.vm.phR
          phW := if on row.phaseDistortionAmount then phase s.vm.phW ⟨0x3ECCCCCD#32⟩ else s.vm.phW } }
      0x00000000#32 v5.bits)

/-! ## Level meter -/

/-- R226: LM.FRAME answers the level of its samples and changes nothing. -/
def Obligations.LevelIsAnswered : Prop :=
  ∀ (s : State) (ss : List Half), s.run = .stopped → ss ≠ [] →
    let sum : Int := (ss.map (fun h => h.toInt * h.toInt)).sum
    let root := ((NUM.ofInt sum).div (NUM.ofInt ss.length)).sqrt
    exec (.lmFrame ss) s = .next (answered s 0x00000000#32
      (clampTo NUM.zero NUM.one (root.div (NUM.ofInt 32768))).bits)

/-- R228: the level of a frame that is not empty lies in `[0, 1]`, is zero where every sample is, and does not
depend on the order of the samples. Over every carrier that keeps the laws of R10 (as log 32 reads them) the level of
silence is zero, which is the first half of the zero-input property of R10. -/
def Obligations.LevelIsBoundedAndSymmetric : Prop :=
  (∀ ss : List Half, ss ≠ [] → ss.length < 2 ^ 31 →
    within NUM.zero NUM.one (level theParams ss ss.length) ∧
    ((∀ h ∈ ss, h = 0#16) → level theParams ss ss.length = NUM.zero) ∧
    (∀ ss' : List Half, ss.Perm ss' → level theParams ss' ss'.length = level theParams ss ss.length)) ∧
  ∀ (F : Type) (p : Params F) (ss : List Half) (n : Int), p.Lawful → p.fullScale = p.ofInt 32768 → 0 < n →
    (∀ h ∈ ss, h = 0#16) → level p ss n = p.zero

/-! ## Frames -/

/-- R238, R240, R297: a failed read emits nothing and steps no unit; a pending snapshot is latched all the same:
every filter restarts from rest, and the delay lines, the phases and the echo's contents stay as they are unless
the echo line grows. -/
def Obligations.FailedReadOnlyLatches : Prop :=
  ∀ (s : State) (n : Word) (ss : List Half), s.run = .running → n.toInt ≤ 0 →
    (s.pend = false → exec (.frame n ss) s = .next s) ∧
    (s.pend = true → ∃ t, exec (.frame n ss) s = .next t ∧ t.pend = false ∧
      t.out = s.out ∧ t.ps = s.ps ∧ t.cb = s.cb ∧ t.vm = s.vm ∧ t.run = s.run ∧ t.sr = s.sr ∧ t.snap = s.snap ∧
      t.ctrl = s.ctrl ∧ t.cap = s.cap ∧ t.pick = s.pick ∧ t.ahead = s.ahead ∧ t.late = s.late ∧
      t.pc = ⟨presetRow theParams s.snap.voicePreset, true⟩ ∧
      (∀ u : Fin 9, (t.bq.get u).z1 = NUM.zero ∧ (t.bq.get u).z2 = NUM.zero) ∧
      t.act.pitchRatio = s.snap.pitchRatio ∧ t.act.volume = s.snap.volume ∧ t.ec.init = s.ec.init ∧
      (t.ec.len = s.ec.len ∧ t.ec.cur = s.ec.cur ∧ t.ec.buf = s.ec.buf ∨
        s.ec.len < t.ec.len ∧ t.ec.cur = 0 ∧ t.ec.buf = []))

/-- R242, R125, R142, R144, R146: a frame of one sample in a good state of a running stream goes through the stages
in their order, and its level, its output, and the state in which it leaves the filters, the pitch shifter, the
modulator, the combs and the echo line, are these: each filter it meets holds the record of its own sample, and the
equaliser's filters are untouched where no band is active. -/
def Obligations.OneSampleGoesThroughTheStages : Prop :=
  ∀ (s : State) (h : Half), s.Inv → s.run = .running → s.pend = false →
    let v0 := (NUM.ofInt h.toInt).div (NUM.ofInt 32768)
    let v1 := if s.act.eqOn then chain s.bq [0, 1, 2, 3, 4] v0 else v0
    let v2 := chain s.bq [5, 6] v1
    let met (u : Fin 9) (x : NUM) : Biquad := ((s.bq.get u).process Num.binary32 x).1
    ∃ ps v3, s.ps.process theParams v2 s.act.pitchRatio = .ok (ps, v3) ∧
      let m := s.vm.process theParams s.pc.row v3
      let v5 := chain s.bq [7, 8] m.2
      ∃ cb v6, reverbProcess theParams s.cb v5 s.act.wet = .ok (cb, v6) ∧
        ∃ ec v7, s.ec.process Num.binary32 v6 = .ok (ec, v7) ∧
          let v8 := clampTo (NUM.ofInt (-1)) NUM.one (v7.mul s.act.volume)
          let q : Half :=
            if v8.isNaN then 0#16
            else BitVec.ofInt 16 (max (-32768) (min 32767 (v8.mul (NUM.ofInt 32768)).round))
          ∃ t, exec (.frame 1#32 [h]) s = .next t ∧
            t.ps = ps ∧ t.vm = m.1 ∧ t.cb = cb ∧ t.ec = ec ∧
            (∀ k : Fin 5, t.bq.get (k.castLE (by omega)) =
              if s.act.eqOn then met (k.castLE (by omega)) (chain s.bq ([0, 1, 2, 3, 4].take k) v0)
              else s.bq.get (k.castLE (by omega))) ∧
            t.bq.get 5 = met 5 v1 ∧ t.bq.get 6 = met 6 (chain s.bq [5] v1) ∧
            t.bq.get 7 = met 7 m.2 ∧ t.bq.get 8 = met 8 (chain s.bq [7] m.2) ∧
            t.out = s.out ++ [.level (level theParams [h] 1).bits, .played ⟨1#32, [q]⟩]

/-- R238: a frame of at least one sample in a good state of a running stream completes: one level event, then one
output frame of the same length. With nothing pending it leaves the run state, the parameters, the coefficients
and the sizes alone, the equaliser's filters too where no band is active, and each delay line stores only at the
places its write cursor passes. -/
def Obligations.FrameCompletesAndItsFrame : Prop :=
  ∀ (s : State) (n : Word) (ss : List Half), s.Inv → s.run = .running → 0 < n.toInt → ss.length = n.toInt.toNat →
    ∃ t q, exec (.frame n ss) s = .next t ∧ q.length = ss.length ∧
      t.out = s.out ++ [.level (level theParams ss n.toInt).bits, .played ⟨n, q⟩] ∧
      t.run = .running ∧ t.pend = false ∧ t.sr = s.sr ∧ t.snap = s.snap ∧ t.ctrl = s.ctrl ∧ t.cap = s.cap ∧
      t.pick = s.pick ∧ t.ahead = s.ahead ∧ t.late = s.late ∧
      (s.pend = false →
        t.act = s.act ∧ t.pc = s.pc ∧ t.vm.sr = s.vm.sr ∧ t.vm.init = s.vm.init ∧
        (∀ u : Fin 9, { t.bq.get u with z1 := (s.bq.get u).z1, z2 := (s.bq.get u).z2 } = s.bq.get u) ∧
        (s.act.eqOn = false → ∀ k : Fin 5, t.bq.get (k.castLE (by omega)) = s.bq.get (k.castLE (by omega))) ∧
        { t.ps with w := s.ps.w, r := s.ps.r, buf := s.ps.buf } = s.ps ∧
        t.ps.w = (s.ps.w + ss.length) % s.ps.size ∧
        (∀ j, (∀ i, i < ss.length → j ≠ (s.ps.w + i) % s.ps.size) → t.ps.buf.read NUM.zero j = s.ps.buf.read NUM.zero j) ∧
        { t.ec with cur := s.ec.cur, buf := s.ec.buf } = s.ec ∧ t.ec.cur = (s.ec.cur + ss.length) % s.ec.len ∧
        (∀ j, (∀ i, i < ss.length → j ≠ (s.ec.cur + i) % s.ec.len) → t.ec.buf.read NUM.zero j = s.ec.buf.read NUM.zero j) ∧
        (s.act.wet.le NUM.zero = true → t.cb = s.cb) ∧
        ∀ k : Fin 3, { t.cb.get k with cur := (s.cb.get k).cur, buf := (s.cb.get k).buf } = s.cb.get k ∧
          ∀ j, (∀ i, i < ss.length → j ≠ ((s.cb.get k).cur + i) % (s.cb.get k).len) →
            (t.cb.get k).buf.read NUM.zero j = (s.cb.get k).buf.read NUM.zero j)

/-- R141, R143, R145, R176, R189, R240: what DERIVE makes of the snapshot: a band below the gate or without a
frequency is bypassed and the others peak with Q 1; a formant or tone shelf that is not called for is bypassed;
the wetness and the echo's parameters add the preset's; nothing else changes. -/
def Obligations.DeriveConfiguresFromTheSnapshot : Prop :=
  ∀ s : State,
    let t := s.derive theParams
    let row := presetRow theParams s.snap.voicePreset
    let off (e : EqSlot) : Prop := e.gainDb.abs.lt ⟨0x3C23D70A#32⟩ = true ∨ e.freq ≤ 0
    let shift := s.snap.formantShift
    let shelfOn (g : NUM) : Bool := NUM.lt ⟨0x3DCCCCCD#32⟩ g.abs
    let delayMs := if s.snap.echoEnabled then NUM.ofInt s.snap.echoDelayMs else NUM.zero
    (∀ k : Fin 5,
      (off (s.snap.eq.get k) → t.bq.get (k.castLE (by omega)) = bypassRecord) ∧
      (¬off (s.snap.eq.get k) → t.bq.get (k.castLE (by omega)) =
        Biquad.peaking theParams (NUM.ofInt (s.snap.eq.get k).freq) (s.snap.eq.get k).gainDb NUM.one s.sr)) ∧
    (t.act.eqOn = true ↔ ∃ k : Fin 5, ¬off (s.snap.eq.get k)) ∧
    t.bq.get 5 = (if 0 < shift then
      Biquad.lowShelf theParams ⟨0x437A0000#32⟩ ((NUM.ofInt shift).mul ⟨0x3F19999A#32⟩) s.sr else bypassRecord) ∧
    t.bq.get 6 = (if shift < 0 then
      Biquad.highShelf theParams ⟨0x451C4000#32⟩ ((NUM.ofInt (-shift)).mul ⟨0x3F19999A#32⟩).neg s.sr
      else bypassRecord) ∧
    t.bq.get 7 = (if shelfOn row.bassGainDb then
      Biquad.lowShelf theParams ⟨0x43340000#32⟩ row.bassGainDb s.sr else bypassRecord) ∧
    t.bq.get 8 = (if shelfOn row.trebleGainDb then
      Biquad.highShelf theParams ⟨0x45480000#32⟩ row.trebleGainDb s.sr else bypassRecord) ∧
    t.act.pitchRatio = s.snap.pitchRatio ∧ t.act.volume = s.snap.volume ∧
    t.act.wet = clampTo NUM.zero NUM.one
      ((s.snap.reverbWet.mul (if s.snap.reverbEnabled then NUM.one else NUM.zero)).add row.extraReverbWet) ∧
    t.ec = s.ec.configured theParams
      ((((if delayMs.lt row.extraDelayMs then row.extraDelayMs else delayMs).div (NUM.ofInt 1000)).mul
        (NUM.ofInt s.sr)).round)
      ((if s.snap.echoEnabled then theParams.echoExplicitMix else NUM.zero).add row.extraDelayMix)
      ((if s.snap.echoEnabled then s.snap.echoFeedback else NUM.zero).add row.extraDelayFeedback) ∧
    t.pc = ⟨row, true⟩ ∧ t.pend = false ∧
    { t with bq := s.bq, act := s.act, ec := s.ec, pc := s.pc, pend := s.pend } = s

/-- R74, R240: the frame after an APPLY runs with that APPLY's parameters from its first sample on. -/
def Obligations.ApplyReachesTheNextFrame : Prop :=
  ∀ (s s1 t : State) (p : DspParameters) (n : Word) (ss : List Half), p.wf = true → s.run = .running →
    exec (.apply p) s = .next s1 → exec (.frame n ss) s1 = .next t →
    s1.act = s.act ∧ s1.bq = s.bq ∧ s1.ec = s.ec ∧ s1.pc = s.pc ∧
    exec (.frame n ss) (s1.derive theParams) = .next t ∧
    t.pend = false ∧
    t.act.pitchRatio = clampTo ⟨0x3F000000#32⟩ ⟨0x40000000#32⟩ p.pitchRatio ∧
    t.act.volume = clampTo NUM.zero NUM.one p.volume ∧
    t.pc = ⟨presetRow theParams (Preset.ofCode p.voicePreset.toInt), true⟩

/-- R308: cutting the input into frames elsewhere changes neither the samples that come out nor the state that
is left, apart from what was emitted. -/
def Obligations.FramesMayBeCutAnywhere : Prop :=
  ∀ (s s1 s2 t : State) (n n1 n2 : Word) (xs ys : List Half), s.run = .running →
    0 < n.toInt → 0 < n1.toInt → 0 < n2.toInt →
    exec (.frame n (xs ++ ys)) s = .next t → exec (.frame n1 xs) s = .next s1 → exec (.frame n2 ys) s1 = .next s2 →
    ∃ qs rs l l1 l2, t.out = s.out ++ [.level l, .played ⟨n, qs ++ rs⟩] ∧
      s2.out = s.out ++ [.level l1, .played ⟨n1, qs⟩, .level l2, .played ⟨n2, rs⟩] ∧
      { t with out := [] } = { s2 with out := [] }

/-- R245: with the neutral parameters an output frame is its input frame sample for sample, with no delay, and
the stream stays neutral. -/
def Obligations.NeutralStreamIsPassthrough : Prop :=
  ∀ (s : State) (n : Word) (ss : List Half), NeutralStream s → 0 < n.toInt → ss.length = n.toInt.toNat →
    ∃ t, exec (.frame n ss) s = .next t ∧ NeutralStream t ∧
      t.out = s.out ++ [.level (level theParams ss n.toInt).bits, .played ⟨n, ss⟩]

/-- R245, R291: a START from the neutral snapshot leaves a neutral stream. -/
def Obligations.StartFromNeutralIsNeutral : Prop :=
  ∀ (s t : State) (sr : Word), s.Inv → s.run = .stopped → s.snap = Snapshot.neutral Num.binary32 → 0 < sr.toInt →
    exec (.start true sr) s = .next t → NeutralStream t

/-! ## Arithmetic -/

/-- R10: the default carrier keeps the laws that every instantiation must keep (as log 32 reads them); and the laws
N1 to N8 for finite operands, written out. -/
def Obligations.CarrierLawsHold : Prop :=
  Num.binary32.Lawful ∧
  ∀ x : NUM, x.isFinite = true →
    NUM.one.mul x = x ∧
    (x.add NUM.zero = x ∨ (x.isZero = true ∧ (x.add NUM.zero).isZero = true)) ∧
    (NUM.zero.add x = x ∨ (x.isZero = true ∧ (NUM.zero.add x).isZero = true)) ∧
    (NUM.zero.mul x).isZero = true ∧
    x.sub x = NUM.zero ∧
    NUM.one.sub NUM.zero = NUM.one ∧ NUM.one.add NUM.zero = NUM.one ∧
    x.div NUM.one = x ∧ (x.isZero = false → x.div x = NUM.one) ∧
    (∀ h : Half, (NUM.ofInt h.toInt).round = h.toInt ∧
      ((NUM.ofInt h.toInt).div (NUM.ofInt 32768)).mul (NUM.ofInt 32768) = NUM.ofInt h.toInt) ∧
    NUM.zero.sin = NUM.zero ∧ NUM.zero.tanh = NUM.zero ∧ NUM.zero.sqrt = NUM.zero ∧ NUM.zero.pow10 = NUM.one

/-- R243: the output conversion undoes the input conversion on every sample, saturates at both ends, and maps a
NaN to 0; and over every carrier that keeps the laws of R10 (as log 32 reads them) it undoes the input conversion too,
which gives zero for zero. -/
def Obligations.OutputConversionIsFaithful : Prop :=
  (∀ h : Half, pcmOut theParams (pcmIn theParams h) = h) ∧
  pcmOut theParams NUM.one = 32767#16 ∧ pcmOut theParams (NUM.ofInt (-1)) = 0x8000#16 ∧
  (∀ v : NUM, v.isNaN = true → pcmOut theParams v = 0#16) ∧
  ∀ (F : Type) (p : Params F), p.Lawful → p.pcmScale = p.ofInt 32768 →
    pcmIn p 0#16 = p.zero ∧ ∀ h : Half, pcmOut p (pcmIn p h) = h

/-! ## Invariants and isolation -/

/-- The reset state is good. The fields that hold no value after reset are the model's choice (log 6). -/
def Obligations.ResetStateIsGood : Prop := State.reset.Inv

/-- R23 to R37: every step, of the block, of either agent by itself, and of what stands outside, keeps the domains of
SNAP and ACT, the canonical buffers, the integers of every initialised unit with INV-PS and INV-EC, and what Running
means. -/
def Obligations.EveryStepKeepsTheInvariant : Prop :=
  (∀ s t : State, s.Inv → step s = .next t → t.Inv) ∧
  (∀ s t : State, s.Inv → s.controlStep exec = .next t ∨ s.workerStep theParams.frameMax exec = .next t → t.Inv) ∧
  (∀ (s : State) (e : External), s.Inv → (s.outside e).Inv)

/-- R62: from a good state no step faults, so no access leaves a buffer. -/
def Obligations.GoodStatesNeverFault : Prop :=
  ∀ s : State, s.Inv → ∀ f, step s ≠ .fault f

/-- R23, R232: under every configuration of carrier and parameters (R6, R9) RUN changes only by a START from Stopped
that succeeds, to Running, and by STOP, to Stopped; the machine is the configuration at the spec's values. -/
def Obligations.OnlyStartAndStopChangeTheRunState : Prop :=
  (∀ (i : Instr) (s : State), exec i s = execWith theParams i s) ∧
  (∀ s : State, step s = stepWith theParams s) ∧
  ∀ (F : Type) [DecidableEq F] (c : Params F) (i : Instr) (s t : State F), execWith c i s = .next t → t.run ≠ s.run →
    (∃ sr, i = .start true sr ∧ 0 < sr.toInt ∧ s.run = .stopped ∧ t.run = .running) ∨ (i = .stop ∧ t.run = .stopped)

/-- R25, R26: under every configuration SNAP is written by APPLY alone, wholesale; PEND is set by APPLY alone. -/
def Obligations.OnlyApplyWritesTheSnapshot : Prop :=
  ∀ (F : Type) [DecidableEq F] (c : Params F) (i : Instr) (s t : State F), execWith c i s = .next t →
    (t.snap ≠ s.snap → ∃ p, i = .apply p ∧ t.snap = clamped c p) ∧
    (s.pend = false → t.pend = true → ∃ p, i = .apply p)

/-- R39, R301: under every configuration, while Running no command but STOP writes the state the worker owns. -/
def Obligations.CommandsLeaveTheWorkersStateAlone : Prop :=
  ∀ (F : Type) [DecidableEq F] (c : Params F) (i : Instr) (s t : State F), s.run = .running → isCommand i = true →
    i ≠ .stop → execWith c i s = .next t →
    t.run = .running ∧ t.sr = s.sr ∧ t.act = s.act ∧ t.bq = s.bq ∧ t.ps = s.ps ∧ t.cb = s.cb ∧ t.ec = s.ec ∧
    t.pc = s.pc ∧ t.vm = s.vm

/-- R37: what a unit that is not initialised contains, and SR and ACT in Stopped, cannot be observed: two states
that differ only there answer alike and go on to differ only there. -/
def Obligations.UninitialisedContentsAreNeverObserved : Prop :=
  ∀ (i : Instr) (s s' : State), (s.run = .running → s.allInit = true) → s.visible = s'.visible →
    match exec i s, exec i s' with
    | .next t, .next t' => t.visible = t'.visible
    | .fault f, .fault f' => f = f'
    | .refused r, .refused r' => r = r'
    | _, _ => False
end

