-- ==== Sys2Proof/Laws/Memory.lean ====
section
/-! SUPPORT. The laws of the buffer words: a read after a write, the canonical form kept by every write, and
equal words making equal data. -/

namespace Sys2Proof.Machine

open Sys2Proof

variable {F : Type} {z : F}

@[simp] theorem Memory.read_nil (i : Nat) : Memory.read z [] i = z := rfl

theorem Memory.read_cons (j : Nat) (x : F) (m : Memory F) (i : Nat) :
    Memory.read z ((j, x) :: m) i = if j = i then x else Memory.read z m i := rfl

theorem bufRead_ok {N : Num F} {len i : Nat} {m : Memory F} {v : F} :
    bufRead N len m i = .ok v ↔ i < len ∧ v = m.read N.zero i := by
  unfold bufRead
  split
  · constructor
    · intro h; cases h; exact ⟨‹_›, rfl⟩
    · rintro ⟨_, rfl⟩; rfl
  · constructor
    · intro h; cases h
    · rintro ⟨h, _⟩; exact absurd h ‹_›

variable [DecidableEq F]

theorem Memory.wfFrom_cons {lo len j : Nat} {x : F} {m : Memory F} :
    Memory.wfFrom z lo len ((j, x) :: m) = true ↔
      (lo ≤ j ∧ j < len ∧ x ≠ z) ∧ Memory.wfFrom z (j + 1) len m = true := by
  simp [Memory.wfFrom, and_assoc]

theorem Memory.wfFrom_mono {lo lo' len : Nat} {m : Memory F} (h : Memory.wfFrom z lo len m = true) (hl : lo' ≤ lo) :
    Memory.wfFrom z lo' len m = true := by
  cases m with
  | nil => rfl
  | cons e m =>
    obtain ⟨j, x⟩ := e
    rw [Memory.wfFrom_cons] at h ⊢
    exact ⟨⟨hl.trans h.1.1, h.1.2⟩, h.2⟩

/-- Below the first index of the canonical form every word is zero. -/
theorem Memory.read_below {m : Memory F} : ∀ {lo len i : Nat}, Memory.wfFrom z lo len m = true → i < lo →
    m.read z i = z := by
  induction m with
  | nil => intros; rfl
  | cons e m ih =>
    obtain ⟨j, x⟩ := e
    intro lo len i h hi
    rw [Memory.wfFrom_cons] at h
    rw [Memory.read_cons, if_neg (by omega), ih h.2 (by omega)]

/-- At or above the length every word is zero: nothing is listed there. -/
theorem Memory.read_above {m : Memory F} : ∀ {lo len i : Nat}, Memory.wfFrom z lo len m = true → len ≤ i →
    m.read z i = z := by
  induction m with
  | nil => intros; rfl
  | cons e m ih =>
    obtain ⟨j, x⟩ := e
    intro lo len i h hi
    rw [Memory.wfFrom_cons] at h
    rw [Memory.read_cons, if_neg (by omega), ih h.2 hi]

theorem Memory.entry_wf {lo len i : Nat} {v : F} {m : Memory F} (hlo : lo ≤ i) (hi : i < len)
    (h : Memory.wfFrom z (i + 1) len m = true) : Memory.wfFrom z lo len (Memory.entry z i v m) = true := by
  unfold Memory.entry
  split
  · exact Memory.wfFrom_mono h (by omega)
  · next hv => exact Memory.wfFrom_cons.mpr ⟨⟨hlo, hi, hv⟩, h⟩

/-- A write inside the length keeps the canonical form. -/
theorem Memory.write_wfFrom {m : Memory F} : ∀ {lo len i : Nat} {v : F}, Memory.wfFrom z lo len m = true → lo ≤ i →
    i < len → Memory.wfFrom z lo len (m.write z i v) = true := by
  induction m with
  | nil => intro lo len i v _ hlo hi; exact Memory.entry_wf hlo hi rfl
  | cons e m ih =>
    obtain ⟨j, x⟩ := e
    intro lo len i v h hlo hi
    have hc := Memory.wfFrom_cons.mp h
    unfold Memory.write
    split
    · exact Memory.entry_wf hlo hi (Memory.wfFrom_cons.mpr ⟨⟨by omega, hc.1.2⟩, hc.2⟩)
    · split
      · exact Memory.entry_wf hlo hi (by subst_vars; exact hc.2)
      · exact Memory.wfFrom_cons.mpr ⟨hc.1, ih hc.2 (by omega) hi⟩

/-- A write inside the length keeps the canonical form of the space. -/
theorem Memory.write_wf {len i : Nat} {v : F} {m : Memory F} (h : m.wf z len = true) (hi : i < len) :
    (m.write z i v).wf z len = true :=
  Memory.write_wfFrom h (Nat.zero_le i) hi

/-- The cleared space is in canonical form. -/
@[simp] theorem Memory.wf_nil (len : Nat) : Memory.wf z len [] = true := rfl

/-- A read of another index does not see a write. -/
theorem Memory.read_write_ne {i k : Nat} {v : F} (hk : k ≠ i) : ∀ m : Memory F, (m.write z i v).read z k = m.read z k := by
  have he : ∀ m : Memory F, (Memory.entry z i v m).read z k = m.read z k := by
    intro m
    unfold Memory.entry
    split
    · rfl
    · rw [Memory.read_cons, if_neg (Ne.symm hk)]
  intro m
  induction m with
  | nil => exact he []
  | cons e m ih =>
    obtain ⟨j, x⟩ := e
    unfold Memory.write
    split
    · exact he _
    · split
      · subst_vars; rw [he, Memory.read_cons, if_neg (Ne.symm hk)]
      · rw [Memory.read_cons, Memory.read_cons, ih]

/-- A read of the written index gives the written word. -/
theorem Memory.read_write_self {i : Nat} {v : F} {m : Memory F} : ∀ {lo len : Nat},
    Memory.wfFrom z lo len m = true → (m.write z i v).read z i = v := by
  have he : ∀ m : Memory F, m.read z i = z → (Memory.entry z i v m).read z i = v := by
    intro m hm
    unfold Memory.entry
    split
    · next h => rw [hm, h]
    · rw [Memory.read_cons, if_pos rfl]
  induction m with
  | nil => intros; exact he [] rfl
  | cons e m ih =>
    obtain ⟨j, x⟩ := e
    intro lo len h
    have hc := Memory.wfFrom_cons.mp h
    unfold Memory.write
    split
    · next hij =>
      refine he _ ?_
      rw [Memory.read_cons, if_neg (by omega), Memory.read_below hc.2 (by omega)]
    · split
      · exact he _ (by subst_vars; exact Memory.read_below hc.2 (by omega))
      · next hne => rw [Memory.read_cons, if_neg (Ne.symm hne), ih hc.2]

/-- Spaces in canonical form that read alike are the same data. -/
theorem Memory.ext_read {m : Memory F} : ∀ {n : Memory F} {lo len : Nat}, Memory.wfFrom z lo len m = true →
    Memory.wfFrom z lo len n = true → (∀ i, m.read z i = n.read z i) → m = n := by
  induction m with
  | nil =>
    intro n lo len _ hn h
    cases n with
    | nil => rfl
    | cons e n =>
      obtain ⟨j, x⟩ := e
      have hc := Memory.wfFrom_cons.mp hn
      have := h j
      rw [Memory.read_nil, Memory.read_cons, if_pos rfl] at this
      exact absurd this.symm hc.1.2.2
  | cons e m ih =>
    obtain ⟨j, x⟩ := e
    intro n lo len hm hn h
    have hc := Memory.wfFrom_cons.mp hm
    cases n with
    | nil =>
      have := h j
      rw [Memory.read_nil, Memory.read_cons, if_pos rfl] at this
      exact absurd this hc.1.2.2
    | cons e n =>
      obtain ⟨k, y⟩ := e
      have hd := Memory.wfFrom_cons.mp hn
      have hjk : j = k := by
        rcases Nat.lt_trichotomy j k with hlt | heq | hgt
        · have := h j
          rw [Memory.read_cons, if_pos rfl, Memory.read_cons, if_neg (by omega),
            Memory.read_below hd.2 (by omega)] at this
          exact absurd this hc.1.2.2
        · exact heq
        · have := h k
          rw [Memory.read_cons, if_neg (by omega), Memory.read_below hc.2 (by omega), Memory.read_cons,
            if_pos rfl] at this
          exact absurd this.symm hd.1.2.2
      subst hjk
      have hxy : x = y := by
        have := h j
        rwa [Memory.read_cons, if_pos rfl, Memory.read_cons, if_pos rfl] at this
      subst hxy
      congr 1
      refine ih hc.2 hd.2 fun i => ?_
      by_cases hi : j = i
      · subst hi; rw [Memory.read_below hc.2 (by omega), Memory.read_below hd.2 (by omega)]
      · have := h i
        rwa [Memory.read_cons, if_neg hi, Memory.read_cons, if_neg hi] at this

theorem bufWrite_ok {N : Num F} {len i : Nat} {m m' : Memory F} {v : F} :
    bufWrite N len m i v = .ok m' ↔ i < len ∧ m' = m.write N.zero i v := by
  unfold bufWrite
  split
  · constructor
    · intro h; cases h; exact ⟨‹_›, rfl⟩
    · rintro ⟨_, rfl⟩; rfl
  · constructor
    · intro h; cases h
    · rintro ⟨h, _⟩; exact absurd h ‹_›

/-- The write of a space that answers keeps its canonical form. -/
theorem bufWrite_wf {N : Num F} {len i : Nat} {m m' : Memory F} {v : F} (h : m.wf N.zero len = true)
    (hw : bufWrite N len m i v = .ok m') : m'.wf N.zero len = true := by
  obtain ⟨hi, rfl⟩ := bufWrite_ok.mp hw
  exact Memory.write_wf h hi

theorem cursorNext_lt {len : Nat} (cur : Nat) (h : 0 < len) : cursorNext len cur < len := Nat.mod_lt _ h

theorem cursorBack_lt {len : Nat} (cur d : Nat) (h : 0 < len) : cursorBack len cur d < len := by
  unfold cursorBack
  have h0 : (0 : Int) < len := by exact_mod_cast h
  have h1 := Int.emod_nonneg ((cur : Int) - d) (ne_of_gt h0)
  have h2 := Int.emod_lt_of_pos ((cur : Int) - d) h0
  omega

theorem indexMod_lt {len : Nat} (i : Int) (h : 0 < len) : indexMod len i < len := by
  unfold indexMod
  have h0 : (0 : Int) < len := by exact_mod_cast h
  have h1 := Int.emod_nonneg i (ne_of_gt h0)
  have h2 := Int.emod_lt_of_pos i h0
  omega

end Sys2Proof.Machine
end

