-- ==== Sys2Proof/Laws/Params.lean ====
section
/-! SUPPORT. Each operation of the default carrier and each parameter at its value, so that no proof unfolds
`Num.binary32` or `theParams`. -/

namespace Sys2Proof

/-! ## The carrier -/

@[simp] theorem binary32_add : Num.binary32.add = NUM.add := rfl
@[simp] theorem binary32_sub : Num.binary32.sub = NUM.sub := rfl
@[simp] theorem binary32_mul : Num.binary32.mul = NUM.mul := rfl
@[simp] theorem binary32_div : Num.binary32.div = NUM.div := rfl
@[simp] theorem binary32_sqrt : Num.binary32.sqrt = NUM.sqrt := rfl
@[simp] theorem binary32_sin : Num.binary32.sin = NUM.sin := rfl
@[simp] theorem binary32_cos : Num.binary32.cos = NUM.cos := rfl
@[simp] theorem binary32_tanh : Num.binary32.tanh = NUM.tanh := rfl
@[simp] theorem binary32_pow10 : Num.binary32.pow10 = NUM.pow10 := rfl
@[simp] theorem binary32_floor : Num.binary32.floor = NUM.floor := rfl
@[simp] theorem binary32_ofInt : Num.binary32.ofInt = NUM.ofInt := rfl
@[simp] theorem binary32_lt : Num.binary32.lt = NUM.lt := rfl
@[simp] theorem binary32_le : Num.binary32.le = NUM.le := rfl
@[simp] theorem binary32_pi : Num.binary32.pi = NUM.pi := rfl
@[simp] theorem binary32_zero : Num.binary32.zero = NUM.zero := rfl
@[simp] theorem binary32_one : Num.binary32.one = NUM.one := rfl
@[simp] theorem binary32_neg : Num.binary32.neg = NUM.neg := rfl
@[simp] theorem binary32_abs : Num.binary32.abs = NUM.abs := rfl
@[simp] theorem binary32_isNaN : Num.binary32.isNaN = NUM.isNaN := rfl
@[simp] theorem binary32_isFinite : Num.binary32.isFinite = NUM.isFinite := rfl
@[simp] theorem binary32_roundToInt : Num.binary32.roundToInt = NUM.round := rfl
@[simp] theorem binary32_f32 (w : Word) : Num.binary32.f32 w = ⟨w⟩ := rfl
@[simp] theorem binary32_encF32 (v : NUM) : Num.binary32.encF32 v = v.bits := rfl
@[simp] theorem NUM.mk_bits (v : NUM) : NUM.mk v.bits = v := rfl

/-- The zeros of the default carrier are its data of magnitude 0. -/
@[simp] theorem binary32_isZero (v : NUM) : Num.binary32.isZero v = v.isZero := by
  have hz : NUM.zero.order = 0 := by decide
  have hn : NUM.zero.isNaN = false := by decide
  simp only [Num.isZero, binary32_le, binary32_zero, NUM.le, hz, hn]
  unfold NUM.isNaN NUM.isZero NUM.order NUM.infMagnitude
  rw [Bool.eq_iff_iff]
  split <;> simp <;> omega

/-- Equality up to the sign of zero keeps a zero a zero. -/
theorem Num.same_isZero {F : Type} {N : Num F} {a b : F} (h : N.same a b) (hb : N.isZero b = true) :
    N.isZero a = true := by
  rcases h with rfl | ⟨ha, -⟩
  · exact hb
  · exact ha

/-- Over a lawful carrier it keeps a finite value finite. -/
theorem Num.Lawful.finite_of_same {F : Type} {N : Num F} (hN : N.Lawful) {a b : F} (h : N.same a b)
    (hb : N.isFinite b = true) : N.isFinite a = true := by
  rcases h with rfl | ⟨ha, -⟩
  · exact hb
  · exact hN.finite_of_isZero _ ha

/-- Subtracting a finite value is adding its opposite, unless the other operand is a NaN. -/
theorem NUM.sub_of_finite {a b : NUM} (ha : a.isNaN = false) (hb : b.isNaN = false) (hi : b.isInf = false) :
    a.sub b = a.add b.neg := by simp [NUM.sub, ha, hb, hi]

/-- The free NaN of an operation is a NaN. -/
@[simp] theorem NUM.nanOf_isNaN (op : Nat) (a b : NUM) : (NUM.nanOf op a b).isNaN = true := by
  simp only [NUM.nanOf]
  split
  · assumption
  · decide

/-! ## The parameters -/

@[simp] theorem theParams_toNum : theParams.toNum = Num.binary32 := rfl
@[simp] theorem theParams_eqBands : theParams.eqBands = 5 := rfl
@[simp] theorem theParams_eqQ : theParams.eqQ = ⟨0x3F800000#32⟩ := rfl
@[simp] theorem theParams_eqGateDb : theParams.eqGateDb = ⟨0x3C23D70A#32⟩ := by decide +kernel
@[simp] theorem theParams_qMin : theParams.qMin = ⟨0x3DCCCCCD#32⟩ := by decide +kernel
@[simp] theorem theParams_formantLoHz : theParams.formantLoHz = ⟨0x437A0000#32⟩ := by decide +kernel
@[simp] theorem theParams_formantHiHz : theParams.formantHiHz = ⟨0x451C4000#32⟩ := by decide +kernel
@[simp] theorem theParams_formantDbPerStep : theParams.formantDbPerStep = ⟨0x3F19999A#32⟩ := by decide +kernel
@[simp] theorem theParams_formantMin : theParams.formantMin = -12 := rfl
@[simp] theorem theParams_formantMax : theParams.formantMax = 12 := rfl
@[simp] theorem theParams_toneLoHz : theParams.toneLoHz = ⟨0x43340000#32⟩ := by decide +kernel
@[simp] theorem theParams_toneHiHz : theParams.toneHiHz = ⟨0x45480000#32⟩ := by decide +kernel
@[simp] theorem theParams_toneGateDb : theParams.toneGateDb = ⟨0x3DCCCCCD#32⟩ := by decide +kernel
@[simp] theorem theParams_shelfSlope : theParams.shelfSlope = ⟨0x3F800000#32⟩ := rfl
@[simp] theorem theParams_pitchMin : theParams.pitchMin = ⟨0x3F000000#32⟩ := by decide +kernel
@[simp] theorem theParams_pitchMax : theParams.pitchMax = ⟨0x40000000#32⟩ := by decide +kernel
@[simp] theorem theParams_pitchDeadband : theParams.pitchDeadband = ⟨0x3CA3D70A#32⟩ := by decide +kernel
@[simp] theorem theParams_pitchSeconds : theParams.pitchSeconds = 2 := rfl
@[simp] theorem theParams_pitchGapNum : theParams.pitchGapNum = 2 := rfl
@[simp] theorem theParams_pitchGapDen : theParams.pitchGapDen = 5 := rfl
@[simp] theorem theParams_pitchGapMin : theParams.pitchGapMin = 64 := rfl
@[simp] theorem theParams_combFb :
    theParams.combFb = #v[⟨0x3F47AE14#32⟩, ⟨0x3F400000#32⟩, ⟨0x3F333333#32⟩] := by decide +kernel
@[simp] theorem theParams_combTenthMs : theParams.combTenthMs = #v[297, 371, 411] := rfl
@[simp] theorem theParams_combLen : theParams.combLen = none := rfl
@[simp] theorem theParams_rvStepWhenDry : theParams.rvStepWhenDry = false := rfl
@[simp] theorem theParams_echoFbMax : theParams.echoFbMax = ⟨0x3F733333#32⟩ := by decide +kernel
@[simp] theorem theParams_echoGrowNum : theParams.echoGrowNum = 3 := rfl
@[simp] theorem theParams_echoGrowDen : theParams.echoGrowDen = 2 := rfl
@[simp] theorem theParams_echoExplicitMix : theParams.echoExplicitMix = Sys2Proof.echoExplicitMix := rfl
@[simp] theorem theParams_echoInitSeconds : theParams.echoInitSeconds = 2 := rfl
@[simp] theorem theParams_echoMaxLen : theParams.echoMaxLen = none := rfl
@[simp] theorem theParams_warpHz : theParams.warpHz = ⟨0x3ECCCCCD#32⟩ := by decide +kernel
@[simp] theorem theParams_distDrive : theParams.distDrive = ⟨0x40C00000#32⟩ := by decide +kernel
@[simp] theorem theParams_fullScale : theParams.fullScale = ⟨0x47000000#32⟩ := by decide +kernel
@[simp] theorem theParams_pcmScale : theParams.pcmScale = ⟨0x47000000#32⟩ := by decide +kernel
@[simp] theorem theParams_clipLo : theParams.clipLo = ⟨0xBF800000#32⟩ := by decide +kernel
@[simp] theorem theParams_clipHi : theParams.clipHi = ⟨0x3F800000#32⟩ := rfl
@[simp] theorem theParams_volumeMin : theParams.volumeMin = ⟨0x00000000#32⟩ := rfl
@[simp] theorem theParams_volumeMax : theParams.volumeMax = ⟨0x3F800000#32⟩ := rfl
@[simp] theorem theParams_wetMin : theParams.wetMin = ⟨0x00000000#32⟩ := rfl
@[simp] theorem theParams_wetMax : theParams.wetMax = ⟨0x3F800000#32⟩ := rfl
@[simp] theorem theParams_clampAllDomains : theParams.clampAllDomains = true := rfl
@[simp] theorem theParams_frameMax : theParams.frameMax = none := rfl

/-! ## The preset table -/

@[simp] theorem theParams_normal : theParams.presetTable.get 0 =
    ⟨⟨0x00000000#32⟩, ⟨0x00000000#32⟩, ⟨0x00000000#32⟩, ⟨0x00000000#32⟩, ⟨0x00000000#32⟩, ⟨0x00000000#32⟩,
      ⟨0x00000000#32⟩, ⟨0x00000000#32⟩, ⟨0x00000000#32⟩, ⟨0x00000000#32⟩, ⟨0x00000000#32⟩, ⟨0x00000000#32⟩⟩ := by decide +kernel

@[simp] theorem theParams_child : theParams.presetTable.get 1 =
    ⟨⟨0x00000000#32⟩, ⟨0x00000000#32⟩, ⟨0x3CA3D70A#32⟩, ⟨0x40A00000#32⟩, ⟨0x00000000#32⟩, ⟨0x00000000#32⟩,
      ⟨0x3E4CCCCD#32⟩, ⟨0x00000000#32⟩, ⟨0x00000000#32⟩, ⟨0x00000000#32⟩, ⟨0xC0000000#32⟩, ⟨0x40400000#32⟩⟩ := by decide +kernel

@[simp] theorem theParams_funny : theParams.presetTable.get 2 =
    ⟨⟨0x3DCCCCCD#32⟩, ⟨0x42F00000#32⟩, ⟨0x3D75C28F#32⟩, ⟨0x40D00000#32⟩, ⟨0x00000000#32⟩, ⟨0x00000000#32⟩,
      ⟨0x00000000#32⟩, ⟨0x42B40000#32⟩, ⟨0x3E800000#32⟩, ⟨0x3E4CCCCD#32⟩, ⟨0x00000000#32⟩, ⟨0x3FC00000#32⟩⟩ := by decide +kernel

@[simp] theorem theParams_robot : theParams.presetTable.get 3 =
    ⟨⟨0x3F266666#32⟩, ⟨0x425C0000#32⟩, ⟨0x00000000#32⟩, ⟨0x00000000#32⟩, ⟨0x3F19999A#32⟩, ⟨0x00000000#32⟩,
      ⟨0x3EB33333#32⟩, ⟨0x43520000#32⟩, ⟨0x3EB33333#32⟩, ⟨0x3EE66666#32⟩, ⟨0x40000000#32⟩, ⟨0x00000000#32⟩⟩ := by decide +kernel

@[simp] theorem theParams_deep : theParams.presetTable.get 4 =
    ⟨⟨0x00000000#32⟩, ⟨0x00000000#32⟩, ⟨0x00000000#32⟩, ⟨0x00000000#32⟩, ⟨0x00000000#32⟩, ⟨0x00000000#32⟩,
      ⟨0x3DF5C28F#32⟩, ⟨0x00000000#32⟩, ⟨0x00000000#32⟩, ⟨0x00000000#32⟩, ⟨0x40A00000#32⟩, ⟨0xC0800000#32⟩⟩ := by decide +kernel

@[simp] theorem theParams_alien : theParams.presetTable.get 5 =
    ⟨⟨0x3EB33333#32⟩, ⟨0x43D20000#32⟩, ⟨0x00000000#32⟩, ⟨0x00000000#32⟩, ⟨0x00000000#32⟩, ⟨0x3F333333#32⟩,
      ⟨0x3E800000#32⟩, ⟨0x43340000#32⟩, ⟨0x3E99999A#32⟩, ⟨0x3E99999A#32⟩, ⟨0x00000000#32⟩, ⟨0x40000000#32⟩⟩ := by decide +kernel

end Sys2Proof
end

