-- ==== Sys2Proof/Laws/State.lean ====
section
/-! SUPPORT. One lemma for each field and each update of the state, true by unfolding, so that no later proof
unfolds an update. -/

namespace Sys2Proof.Machine

open Sys2Proof

variable {F : Type}

/-! ## emit -/

@[simp] theorem State.emit_run (s : State F) (o : Output) : (s.emit o).run = s.run := rfl

@[simp] theorem State.emit_sr (s : State F) (o : Output) : (s.emit o).sr = s.sr := rfl

@[simp] theorem State.emit_snap (s : State F) (o : Output) : (s.emit o).snap = s.snap := rfl

@[simp] theorem State.emit_pend (s : State F) (o : Output) : (s.emit o).pend = s.pend := rfl

@[simp] theorem State.emit_act (s : State F) (o : Output) : (s.emit o).act = s.act := rfl

@[simp] theorem State.emit_bq (s : State F) (o : Output) : (s.emit o).bq = s.bq := rfl

@[simp] theorem State.emit_ps (s : State F) (o : Output) : (s.emit o).ps = s.ps := rfl

@[simp] theorem State.emit_cb (s : State F) (o : Output) : (s.emit o).cb = s.cb := rfl

@[simp] theorem State.emit_ec (s : State F) (o : Output) : (s.emit o).ec = s.ec := rfl

@[simp] theorem State.emit_pc (s : State F) (o : Output) : (s.emit o).pc = s.pc := rfl

@[simp] theorem State.emit_vm (s : State F) (o : Output) : (s.emit o).vm = s.vm := rfl

@[simp] theorem State.emit_ctrl (s : State F) (o : Output) : (s.emit o).ctrl = s.ctrl := rfl

@[simp] theorem State.emit_cap (s : State F) (o : Output) : (s.emit o).cap = s.cap := rfl

@[simp] theorem State.emit_out (s : State F) (o : Output) : (s.emit o).out = s.out ++ [o] := rfl

@[simp] theorem State.emit_pick (s : State F) (o : Output) : (s.emit o).pick = s.pick := rfl

@[simp] theorem State.emit_ahead (s : State F) (o : Output) : (s.emit o).ahead = s.ahead := rfl

@[simp] theorem State.emit_late (s : State F) (o : Output) : (s.emit o).late = s.late := rfl

/-! ## respond -/

@[simp] theorem State.respond_run (s : State F) (st : Status) (v : Word) : (s.respond st v).run = s.run := rfl

@[simp] theorem State.respond_sr (s : State F) (st : Status) (v : Word) : (s.respond st v).sr = s.sr := rfl

@[simp] theorem State.respond_snap (s : State F) (st : Status) (v : Word) : (s.respond st v).snap = s.snap := rfl

@[simp] theorem State.respond_pend (s : State F) (st : Status) (v : Word) : (s.respond st v).pend = s.pend := rfl

@[simp] theorem State.respond_act (s : State F) (st : Status) (v : Word) : (s.respond st v).act = s.act := rfl

@[simp] theorem State.respond_bq (s : State F) (st : Status) (v : Word) : (s.respond st v).bq = s.bq := rfl

@[simp] theorem State.respond_ps (s : State F) (st : Status) (v : Word) : (s.respond st v).ps = s.ps := rfl

@[simp] theorem State.respond_cb (s : State F) (st : Status) (v : Word) : (s.respond st v).cb = s.cb := rfl

@[simp] theorem State.respond_ec (s : State F) (st : Status) (v : Word) : (s.respond st v).ec = s.ec := rfl

@[simp] theorem State.respond_pc (s : State F) (st : Status) (v : Word) : (s.respond st v).pc = s.pc := rfl

@[simp] theorem State.respond_vm (s : State F) (st : Status) (v : Word) : (s.respond st v).vm = s.vm := rfl

@[simp] theorem State.respond_ctrl (s : State F) (st : Status) (v : Word) : (s.respond st v).ctrl = s.ctrl := rfl

@[simp] theorem State.respond_cap (s : State F) (st : Status) (v : Word) : (s.respond st v).cap = s.cap := rfl

@[simp] theorem State.respond_out (s : State F) (st : Status) (v : Word) :
    (s.respond st v).out = s.out ++ [.response (statusWord st) v] := rfl

@[simp] theorem State.respond_pick (s : State F) (st : Status) (v : Word) : (s.respond st v).pick = s.pick := rfl

@[simp] theorem State.respond_ahead (s : State F) (st : Status) (v : Word) : (s.respond st v).ahead = s.ahead := rfl

@[simp] theorem State.respond_late (s : State F) (st : Status) (v : Word) : (s.respond st v).late = s.late := rfl

/-! ## refuse -/

@[simp] theorem State.refuse_run (s : State F) (e : Status) : (s.refuse e).run = s.run := rfl

@[simp] theorem State.refuse_sr (s : State F) (e : Status) : (s.refuse e).sr = s.sr := rfl

@[simp] theorem State.refuse_snap (s : State F) (e : Status) : (s.refuse e).snap = s.snap := rfl

@[simp] theorem State.refuse_pend (s : State F) (e : Status) : (s.refuse e).pend = s.pend := rfl

@[simp] theorem State.refuse_act (s : State F) (e : Status) : (s.refuse e).act = s.act := rfl

@[simp] theorem State.refuse_bq (s : State F) (e : Status) : (s.refuse e).bq = s.bq := rfl

@[simp] theorem State.refuse_ps (s : State F) (e : Status) : (s.refuse e).ps = s.ps := rfl

@[simp] theorem State.refuse_cb (s : State F) (e : Status) : (s.refuse e).cb = s.cb := rfl

@[simp] theorem State.refuse_ec (s : State F) (e : Status) : (s.refuse e).ec = s.ec := rfl

@[simp] theorem State.refuse_pc (s : State F) (e : Status) : (s.refuse e).pc = s.pc := rfl

@[simp] theorem State.refuse_vm (s : State F) (e : Status) : (s.refuse e).vm = s.vm := rfl

@[simp] theorem State.refuse_ctrl (s : State F) (e : Status) : (s.refuse e).ctrl = s.ctrl := rfl

@[simp] theorem State.refuse_cap (s : State F) (e : Status) : (s.refuse e).cap = s.cap := rfl

@[simp] theorem State.refuse_out (s : State F) (e : Status) :
    (s.refuse e).out = s.out ++ [.response (statusWord e) 0#32] := rfl

@[simp] theorem State.refuse_pick (s : State F) (e : Status) : (s.refuse e).pick = s.pick := rfl

@[simp] theorem State.refuse_ahead (s : State F) (e : Status) : (s.refuse e).ahead = s.ahead := rfl

@[simp] theorem State.refuse_late (s : State F) (e : Status) : (s.refuse e).late = s.late := rfl

/-! ## setBq -/

@[simp] theorem State.setBq_run (s : State F) (u : Fin 9) (b : Biquad F) : (s.setBq u b).run = s.run := rfl

@[simp] theorem State.setBq_sr (s : State F) (u : Fin 9) (b : Biquad F) : (s.setBq u b).sr = s.sr := rfl

@[simp] theorem State.setBq_snap (s : State F) (u : Fin 9) (b : Biquad F) : (s.setBq u b).snap = s.snap := rfl

@[simp] theorem State.setBq_pend (s : State F) (u : Fin 9) (b : Biquad F) : (s.setBq u b).pend = s.pend := rfl

@[simp] theorem State.setBq_act (s : State F) (u : Fin 9) (b : Biquad F) : (s.setBq u b).act = s.act := rfl

@[simp] theorem State.setBq_bq (s : State F) (u : Fin 9) (b : Biquad F) : (s.setBq u b).bq = s.bq.set u b := rfl

@[simp] theorem State.setBq_ps (s : State F) (u : Fin 9) (b : Biquad F) : (s.setBq u b).ps = s.ps := rfl

@[simp] theorem State.setBq_cb (s : State F) (u : Fin 9) (b : Biquad F) : (s.setBq u b).cb = s.cb := rfl

@[simp] theorem State.setBq_ec (s : State F) (u : Fin 9) (b : Biquad F) : (s.setBq u b).ec = s.ec := rfl

@[simp] theorem State.setBq_pc (s : State F) (u : Fin 9) (b : Biquad F) : (s.setBq u b).pc = s.pc := rfl

@[simp] theorem State.setBq_vm (s : State F) (u : Fin 9) (b : Biquad F) : (s.setBq u b).vm = s.vm := rfl

@[simp] theorem State.setBq_ctrl (s : State F) (u : Fin 9) (b : Biquad F) : (s.setBq u b).ctrl = s.ctrl := rfl

@[simp] theorem State.setBq_cap (s : State F) (u : Fin 9) (b : Biquad F) : (s.setBq u b).cap = s.cap := rfl

@[simp] theorem State.setBq_out (s : State F) (u : Fin 9) (b : Biquad F) : (s.setBq u b).out = s.out := rfl

@[simp] theorem State.setBq_pick (s : State F) (u : Fin 9) (b : Biquad F) : (s.setBq u b).pick = s.pick := rfl

@[simp] theorem State.setBq_ahead (s : State F) (u : Fin 9) (b : Biquad F) : (s.setBq u b).ahead = s.ahead := rfl

@[simp] theorem State.setBq_late (s : State F) (u : Fin 9) (b : Biquad F) : (s.setBq u b).late = s.late := rfl

/-! ## setCb -/

@[simp] theorem State.setCb_run (s : State F) (k : Fin 3) (c : Comb F) : (s.setCb k c).run = s.run := rfl

@[simp] theorem State.setCb_sr (s : State F) (k : Fin 3) (c : Comb F) : (s.setCb k c).sr = s.sr := rfl

@[simp] theorem State.setCb_snap (s : State F) (k : Fin 3) (c : Comb F) : (s.setCb k c).snap = s.snap := rfl

@[simp] theorem State.setCb_pend (s : State F) (k : Fin 3) (c : Comb F) : (s.setCb k c).pend = s.pend := rfl

@[simp] theorem State.setCb_act (s : State F) (k : Fin 3) (c : Comb F) : (s.setCb k c).act = s.act := rfl

@[simp] theorem State.setCb_bq (s : State F) (k : Fin 3) (c : Comb F) : (s.setCb k c).bq = s.bq := rfl

@[simp] theorem State.setCb_ps (s : State F) (k : Fin 3) (c : Comb F) : (s.setCb k c).ps = s.ps := rfl

@[simp] theorem State.setCb_cb (s : State F) (k : Fin 3) (c : Comb F) : (s.setCb k c).cb = s.cb.set k c := rfl

@[simp] theorem State.setCb_ec (s : State F) (k : Fin 3) (c : Comb F) : (s.setCb k c).ec = s.ec := rfl

@[simp] theorem State.setCb_pc (s : State F) (k : Fin 3) (c : Comb F) : (s.setCb k c).pc = s.pc := rfl

@[simp] theorem State.setCb_vm (s : State F) (k : Fin 3) (c : Comb F) : (s.setCb k c).vm = s.vm := rfl

@[simp] theorem State.setCb_ctrl (s : State F) (k : Fin 3) (c : Comb F) : (s.setCb k c).ctrl = s.ctrl := rfl

@[simp] theorem State.setCb_cap (s : State F) (k : Fin 3) (c : Comb F) : (s.setCb k c).cap = s.cap := rfl

@[simp] theorem State.setCb_out (s : State F) (k : Fin 3) (c : Comb F) : (s.setCb k c).out = s.out := rfl

@[simp] theorem State.setCb_pick (s : State F) (k : Fin 3) (c : Comb F) : (s.setCb k c).pick = s.pick := rfl

@[simp] theorem State.setCb_ahead (s : State F) (k : Fin 3) (c : Comb F) : (s.setCb k c).ahead = s.ahead := rfl

@[simp] theorem State.setCb_late (s : State F) (k : Fin 3) (c : Comb F) : (s.setCb k c).late = s.late := rfl

/-! ## destroyed -/

@[simp] theorem State.destroyed_run (s : State F) (N : Num F) : (s.destroyed N).run = .stopped := rfl

@[simp] theorem State.destroyed_sr (s : State F) (N : Num F) : (s.destroyed N).sr = 0 := rfl

@[simp] theorem State.destroyed_snap (s : State F) (N : Num F) : (s.destroyed N).snap = s.snap := rfl

@[simp] theorem State.destroyed_pend (s : State F) (N : Num F) : (s.destroyed N).pend = s.pend := rfl

@[simp] theorem State.destroyed_act (s : State F) (N : Num F) : (s.destroyed N).act = Active.none N := rfl

@[simp] theorem State.destroyed_bq (s : State F) (N : Num F) :
    (s.destroyed N).bq = Vector.replicate 9 (Biquad.none N) := rfl

@[simp] theorem State.destroyed_ps (s : State F) (N : Num F) : (s.destroyed N).ps = PitchShifter.none N := rfl

@[simp] theorem State.destroyed_cb (s : State F) (N : Num F) :
    (s.destroyed N).cb = Vector.replicate 3 (Comb.none N) := rfl

@[simp] theorem State.destroyed_ec (s : State F) (N : Num F) : (s.destroyed N).ec = Echo.none N := rfl

@[simp] theorem State.destroyed_pc (s : State F) (N : Num F) : (s.destroyed N).pc = PresetConfig.none N := rfl

@[simp] theorem State.destroyed_vm (s : State F) (N : Num F) : (s.destroyed N).vm = VoiceModulator.none N := rfl

@[simp] theorem State.destroyed_ctrl (s : State F) (N : Num F) : (s.destroyed N).ctrl = s.ctrl := rfl

@[simp] theorem State.destroyed_cap (s : State F) (N : Num F) : (s.destroyed N).cap = s.cap := rfl

@[simp] theorem State.destroyed_out (s : State F) (N : Num F) : (s.destroyed N).out = s.out := rfl

@[simp] theorem State.destroyed_pick (s : State F) (N : Num F) : (s.destroyed N).pick = s.pick := rfl

@[simp] theorem State.destroyed_ahead (s : State F) (N : Num F) : (s.destroyed N).ahead = s.ahead := rfl

@[simp] theorem State.destroyed_late (s : State F) (N : Num F) : (s.destroyed N).late = s.late := rfl

/-! ## created -/

@[simp] theorem State.created_run (s : State F) (p : Params F) (sr : Int) : (s.created p sr).run = .starting := rfl

@[simp] theorem State.created_sr (s : State F) (p : Params F) (sr : Int) : (s.created p sr).sr = sr := rfl

@[simp] theorem State.created_snap (s : State F) (p : Params F) (sr : Int) : (s.created p sr).snap = s.snap := rfl

@[simp] theorem State.created_pend (s : State F) (p : Params F) (sr : Int) : (s.created p sr).pend = s.pend := rfl

@[simp] theorem State.created_act (s : State F) (p : Params F) (sr : Int) : (s.created p sr).act = s.act := rfl

@[simp] theorem State.created_bq (s : State F) (p : Params F) (sr : Int) : (s.created p sr).bq = s.bq := rfl

@[simp] theorem State.created_ps (s : State F) (p : Params F) (sr : Int) :
    (s.created p sr).ps = PitchShifter.created p sr := rfl

@[simp] theorem State.created_cb (s : State F) (p : Params F) (sr : Int) :
    (s.created p sr).cb = combsCreated p sr := rfl

@[simp] theorem State.created_ec (s : State F) (p : Params F) (sr : Int) :
    (s.created p sr).ec = Echo.created p.toNum (echoInitLen p sr) := rfl

@[simp] theorem State.created_pc (s : State F) (p : Params F) (sr : Int) : (s.created p sr).pc = s.pc := rfl

@[simp] theorem State.created_vm (s : State F) (p : Params F) (sr : Int) :
    (s.created p sr).vm = VoiceModulator.created p.toNum sr := rfl

@[simp] theorem State.created_ctrl (s : State F) (p : Params F) (sr : Int) : (s.created p sr).ctrl = s.ctrl := rfl

@[simp] theorem State.created_cap (s : State F) (p : Params F) (sr : Int) : (s.created p sr).cap = s.cap := rfl

@[simp] theorem State.created_out (s : State F) (p : Params F) (sr : Int) : (s.created p sr).out = s.out := rfl

@[simp] theorem State.created_pick (s : State F) (p : Params F) (sr : Int) : (s.created p sr).pick = s.pick := rfl

@[simp] theorem State.created_ahead (s : State F) (p : Params F) (sr : Int) : (s.created p sr).ahead = s.ahead := rfl

@[simp] theorem State.created_late (s : State F) (p : Params F) (sr : Int) : (s.created p sr).late = s.late := rfl

/-! ## derive -/

@[simp] theorem State.derive_run (s : State F) (p : Params F) : (s.derive p).run = s.run := rfl

@[simp] theorem State.derive_sr (s : State F) (p : Params F) : (s.derive p).sr = s.sr := rfl

@[simp] theorem State.derive_snap (s : State F) (p : Params F) : (s.derive p).snap = s.snap := rfl

@[simp] theorem State.derive_pend (s : State F) (p : Params F) : (s.derive p).pend = false := rfl

@[simp] theorem State.derive_act (s : State F) (p : Params F) :
    (s.derive p).act =
      ⟨s.snap.pitchRatio, s.snap.volume, derivedEqOn p s.snap, derivedWet p s.snap (presetRow p s.snap.voicePreset)⟩ := rfl

@[simp] theorem State.derive_bq (s : State F) (p : Params F) :
    (s.derive p).bq = derivedBank p s.snap (presetRow p s.snap.voicePreset) s.sr := rfl

@[simp] theorem State.derive_ps (s : State F) (p : Params F) : (s.derive p).ps = s.ps := rfl

@[simp] theorem State.derive_cb (s : State F) (p : Params F) : (s.derive p).cb = s.cb := rfl

@[simp] theorem State.derive_ec (s : State F) (p : Params F) :
    (s.derive p).ec = derivedEcho p s.ec s.snap (presetRow p s.snap.voicePreset) s.sr := rfl

@[simp] theorem State.derive_pc (s : State F) (p : Params F) :
    (s.derive p).pc = PresetConfig.loaded p s.snap.voicePreset := rfl

@[simp] theorem State.derive_vm (s : State F) (p : Params F) : (s.derive p).vm = s.vm := rfl

@[simp] theorem State.derive_ctrl (s : State F) (p : Params F) : (s.derive p).ctrl = s.ctrl := rfl

@[simp] theorem State.derive_cap (s : State F) (p : Params F) : (s.derive p).cap = s.cap := rfl

@[simp] theorem State.derive_out (s : State F) (p : Params F) : (s.derive p).out = s.out := rfl

@[simp] theorem State.derive_pick (s : State F) (p : Params F) : (s.derive p).pick = s.pick := rfl

@[simp] theorem State.derive_ahead (s : State F) (p : Params F) : (s.derive p).ahead = s.ahead := rfl

@[simp] theorem State.derive_late (s : State F) (p : Params F) : (s.derive p).late = s.late := rfl

/-! ## filter -/

@[simp] theorem State.filter_run (N : Num F) (s : State F) (u : Fin 9) (x : F) : (s.filter N u x).1.run = s.run := rfl

@[simp] theorem State.filter_sr (N : Num F) (s : State F) (u : Fin 9) (x : F) : (s.filter N u x).1.sr = s.sr := rfl

@[simp] theorem State.filter_snap (N : Num F) (s : State F) (u : Fin 9) (x : F) :
    (s.filter N u x).1.snap = s.snap := rfl

@[simp] theorem State.filter_pend (N : Num F) (s : State F) (u : Fin 9) (x : F) :
    (s.filter N u x).1.pend = s.pend := rfl

@[simp] theorem State.filter_act (N : Num F) (s : State F) (u : Fin 9) (x : F) : (s.filter N u x).1.act = s.act := rfl

@[simp] theorem State.filter_bq (N : Num F) (s : State F) (u : Fin 9) (x : F) :
    (s.filter N u x).1.bq = s.bq.set u ((s.bq.get u).process N x).1 := rfl

@[simp] theorem State.filter_ps (N : Num F) (s : State F) (u : Fin 9) (x : F) : (s.filter N u x).1.ps = s.ps := rfl

@[simp] theorem State.filter_cb (N : Num F) (s : State F) (u : Fin 9) (x : F) : (s.filter N u x).1.cb = s.cb := rfl

@[simp] theorem State.filter_ec (N : Num F) (s : State F) (u : Fin 9) (x : F) : (s.filter N u x).1.ec = s.ec := rfl

@[simp] theorem State.filter_pc (N : Num F) (s : State F) (u : Fin 9) (x : F) : (s.filter N u x).1.pc = s.pc := rfl

@[simp] theorem State.filter_vm (N : Num F) (s : State F) (u : Fin 9) (x : F) : (s.filter N u x).1.vm = s.vm := rfl

@[simp] theorem State.filter_ctrl (N : Num F) (s : State F) (u : Fin 9) (x : F) :
    (s.filter N u x).1.ctrl = s.ctrl := rfl

@[simp] theorem State.filter_cap (N : Num F) (s : State F) (u : Fin 9) (x : F) : (s.filter N u x).1.cap = s.cap := rfl

@[simp] theorem State.filter_out (N : Num F) (s : State F) (u : Fin 9) (x : F) : (s.filter N u x).1.out = s.out := rfl

@[simp] theorem State.filter_pick (N : Num F) (s : State F) (u : Fin 9) (x : F) :
    (s.filter N u x).1.pick = s.pick := rfl

@[simp] theorem State.filter_ahead (N : Num F) (s : State F) (u : Fin 9) (x : F) :
    (s.filter N u x).1.ahead = s.ahead := rfl

@[simp] theorem State.filter_late (N : Num F) (s : State F) (u : Fin 9) (x : F) :
    (s.filter N u x).1.late = s.late := rfl

/-! ## modulate -/

@[simp] theorem State.modulate_run (p : Params F) (s : State F) (x : F) : (s.modulate p x).1.run = s.run := rfl

@[simp] theorem State.modulate_sr (p : Params F) (s : State F) (x : F) : (s.modulate p x).1.sr = s.sr := rfl

@[simp] theorem State.modulate_snap (p : Params F) (s : State F) (x : F) : (s.modulate p x).1.snap = s.snap := rfl

@[simp] theorem State.modulate_pend (p : Params F) (s : State F) (x : F) : (s.modulate p x).1.pend = s.pend := rfl

@[simp] theorem State.modulate_act (p : Params F) (s : State F) (x : F) : (s.modulate p x).1.act = s.act := rfl

@[simp] theorem State.modulate_bq (p : Params F) (s : State F) (x : F) : (s.modulate p x).1.bq = s.bq := rfl

@[simp] theorem State.modulate_ps (p : Params F) (s : State F) (x : F) : (s.modulate p x).1.ps = s.ps := rfl

@[simp] theorem State.modulate_cb (p : Params F) (s : State F) (x : F) : (s.modulate p x).1.cb = s.cb := rfl

@[simp] theorem State.modulate_ec (p : Params F) (s : State F) (x : F) : (s.modulate p x).1.ec = s.ec := rfl

@[simp] theorem State.modulate_pc (p : Params F) (s : State F) (x : F) : (s.modulate p x).1.pc = s.pc := rfl

@[simp] theorem State.modulate_vm (p : Params F) (s : State F) (x : F) :
    (s.modulate p x).1.vm = (s.vm.process p s.pc.row x).1 := rfl

@[simp] theorem State.modulate_ctrl (p : Params F) (s : State F) (x : F) : (s.modulate p x).1.ctrl = s.ctrl := rfl

@[simp] theorem State.modulate_cap (p : Params F) (s : State F) (x : F) : (s.modulate p x).1.cap = s.cap := rfl

@[simp] theorem State.modulate_out (p : Params F) (s : State F) (x : F) : (s.modulate p x).1.out = s.out := rfl

@[simp] theorem State.modulate_pick (p : Params F) (s : State F) (x : F) : (s.modulate p x).1.pick = s.pick := rfl

@[simp] theorem State.modulate_ahead (p : Params F) (s : State F) (x : F) : (s.modulate p x).1.ahead = s.ahead := rfl

@[simp] theorem State.modulate_late (p : Params F) (s : State F) (x : F) : (s.modulate p x).1.late = s.late := rfl

/-! ## tookCommand -/

@[simp] theorem State.tookCommand_run (s : State F) (rest : List Word) : (s.tookCommand rest).run = s.run := rfl

@[simp] theorem State.tookCommand_sr (s : State F) (rest : List Word) : (s.tookCommand rest).sr = s.sr := rfl

@[simp] theorem State.tookCommand_snap (s : State F) (rest : List Word) : (s.tookCommand rest).snap = s.snap := rfl

@[simp] theorem State.tookCommand_pend (s : State F) (rest : List Word) : (s.tookCommand rest).pend = s.pend := rfl

@[simp] theorem State.tookCommand_act (s : State F) (rest : List Word) : (s.tookCommand rest).act = s.act := rfl

@[simp] theorem State.tookCommand_bq (s : State F) (rest : List Word) : (s.tookCommand rest).bq = s.bq := rfl

@[simp] theorem State.tookCommand_ps (s : State F) (rest : List Word) : (s.tookCommand rest).ps = s.ps := rfl

@[simp] theorem State.tookCommand_cb (s : State F) (rest : List Word) : (s.tookCommand rest).cb = s.cb := rfl

@[simp] theorem State.tookCommand_ec (s : State F) (rest : List Word) : (s.tookCommand rest).ec = s.ec := rfl

@[simp] theorem State.tookCommand_pc (s : State F) (rest : List Word) : (s.tookCommand rest).pc = s.pc := rfl

@[simp] theorem State.tookCommand_vm (s : State F) (rest : List Word) : (s.tookCommand rest).vm = s.vm := rfl

@[simp] theorem State.tookCommand_ctrl (s : State F) (rest : List Word) : (s.tookCommand rest).ctrl = rest := rfl

@[simp] theorem State.tookCommand_cap (s : State F) (rest : List Word) : (s.tookCommand rest).cap = s.cap := rfl

@[simp] theorem State.tookCommand_out (s : State F) (rest : List Word) : (s.tookCommand rest).out = s.out := rfl

@[simp] theorem State.tookCommand_pick (s : State F) (rest : List Word) : (s.tookCommand rest).pick = s.pick := rfl

@[simp] theorem State.tookCommand_ahead (s : State F) (rest : List Word) : (s.tookCommand rest).ahead = s.ahead := rfl

@[simp] theorem State.tookCommand_late (s : State F) (rest : List Word) :
    (s.tookCommand rest).late = s.late - (stopsOffered s.ctrl - stopsOffered rest) := rfl

/-! ## tookFrame -/

@[simp] theorem State.tookFrame_run (s : State F) (rest : List Frame) : (s.tookFrame rest).run = s.run := rfl

@[simp] theorem State.tookFrame_sr (s : State F) (rest : List Frame) : (s.tookFrame rest).sr = s.sr := rfl

@[simp] theorem State.tookFrame_snap (s : State F) (rest : List Frame) : (s.tookFrame rest).snap = s.snap := rfl

@[simp] theorem State.tookFrame_pend (s : State F) (rest : List Frame) : (s.tookFrame rest).pend = s.pend := rfl

@[simp] theorem State.tookFrame_act (s : State F) (rest : List Frame) : (s.tookFrame rest).act = s.act := rfl

@[simp] theorem State.tookFrame_bq (s : State F) (rest : List Frame) : (s.tookFrame rest).bq = s.bq := rfl

@[simp] theorem State.tookFrame_ps (s : State F) (rest : List Frame) : (s.tookFrame rest).ps = s.ps := rfl

@[simp] theorem State.tookFrame_cb (s : State F) (rest : List Frame) : (s.tookFrame rest).cb = s.cb := rfl

@[simp] theorem State.tookFrame_ec (s : State F) (rest : List Frame) : (s.tookFrame rest).ec = s.ec := rfl

@[simp] theorem State.tookFrame_pc (s : State F) (rest : List Frame) : (s.tookFrame rest).pc = s.pc := rfl

@[simp] theorem State.tookFrame_vm (s : State F) (rest : List Frame) : (s.tookFrame rest).vm = s.vm := rfl

@[simp] theorem State.tookFrame_ctrl (s : State F) (rest : List Frame) : (s.tookFrame rest).ctrl = s.ctrl := rfl

@[simp] theorem State.tookFrame_cap (s : State F) (rest : List Frame) : (s.tookFrame rest).cap = rest := rfl

@[simp] theorem State.tookFrame_out (s : State F) (rest : List Frame) : (s.tookFrame rest).out = s.out := rfl

@[simp] theorem State.tookFrame_pick (s : State F) (rest : List Frame) : (s.tookFrame rest).pick = s.pick + 1 := rfl

@[simp] theorem State.tookFrame_ahead (s : State F) (rest : List Frame) : (s.tookFrame rest).ahead = 0 := rfl

@[simp] theorem State.tookFrame_late (s : State F) (rest : List Frame) :
    (s.tookFrame rest).late = stopsOffered s.ctrl := rfl

end Sys2Proof.Machine
end

