-- ==== Sys2Proof/Laws/Ops.lean ====
section
/-! SUPPORT. What each shared operation can do, said once: later proofs cite these and do not unfold. -/

namespace Sys2Proof.Machine

open Sys2Proof

variable {F : Type}

/-! ## Checks -/

@[simp] theorem firstFailing_nil : firstFailing [] = none := rfl

@[simp] theorem firstFailing_cons (ok : Bool) (e : Status) (rest : List (Bool × Status)) :
    firstFailing ((ok, e) :: rest) = if ok then firstFailing rest else some e := rfl

/-- A guarded command goes on exactly when no check fails. -/
theorem State.guarded_pass {s : State F} {checks : List (Bool × Status)} {act : Result F}
    (h : firstFailing checks = none) : s.guarded checks act = act := by
  unfold State.guarded; rw [h]

/-- A guarded command is refused with its first failing check. -/
theorem State.guarded_refuse {s : State F} {checks : List (Bool × Status)} {act : Result F} {e : Status}
    (h : firstFailing checks = some e) : s.guarded checks act = .next (s.refuse e) := by
  unfold State.guarded; rw [h]

/-- What a guarded command can answer. -/
theorem State.guarded_next {s t : State F} {checks : List (Bool × Status)} {act : Result F}
    (h : s.guarded checks act = .next t) :
    (∃ e, firstFailing checks = some e ∧ t = s.refuse e) ∨ (firstFailing checks = none ∧ act = .next t) := by
  unfold State.guarded at h
  split at h
  · next e he => cases h; exact .inl ⟨e, he, rfl⟩
  · next he => exact .inr ⟨he, h⟩

/-! ## Completion -/

@[simp] theorem complete_next {s t : State F} : complete s = .next t ↔ t = s.respond .ok 0#32 := by
  unfold complete
  constructor
  · intro h; cases h; rfl
  · rintro rfl; rfl

/-- What a command that returns a NUM can answer. -/
theorem completeValue_next {N : Num F} {r : Except Fault (State F × F)} {t : State F} :
    completeValue N r = .next t ↔ ∃ s y, r = .ok (s, y) ∧ t = s.respond .ok (N.encF32 y) := by
  constructor
  · intro h
    cases r with
    | error f => cases h
    | ok v => obtain ⟨s, y⟩ := v; cases h; exact ⟨s, y, rfl, rfl⟩
  · rintro ⟨s, y, rfl, rfl⟩; rfl

/-! ## Units -/

section

variable [DecidableEq F]

/-- A comb answers exactly when its cursor is in its buffer, and then this. -/
theorem Comb.process_ok {N : Num F} {c c' : Comb F} {x y : F} :
    c.process N x = .ok (c', y) ↔ c.cur < c.len ∧ y = c.buf.read N.zero c.cur ∧
      c' = { c with
        buf := c.buf.write N.zero c.cur (N.add x (N.mul (c.buf.read N.zero c.cur) c.fb)),
        cur := cursorNext c.len c.cur } := by
  unfold Comb.process bufRead bufWrite
  by_cases h : c.cur < c.len
  · simp only [h, if_true]
    constructor
    · intro h'; cases h'; exact ⟨trivial, rfl, rfl⟩
    · rintro ⟨-, rfl, rfl⟩; rfl
  · simp only [h, if_false]
    constructor
    · intro h'; cases h'
    · rintro ⟨h', -⟩; exact h'.elim

/-- An echo line answers exactly when both its indices are in its buffer, and then this. -/
theorem Echo.process_ok {N : Num F} {ec ec' : Echo F} {x y : F} :
    ec.process N x = .ok (ec', y) ↔
      (cursorBack ec.len ec.cur ec.d < ec.len ∧ ec.cur < ec.len) ∧
      y = N.add (N.mul x (N.sub N.one ec.mix))
        (N.mul (ec.buf.read N.zero (cursorBack ec.len ec.cur ec.d)) ec.mix) ∧
      ec' = { ec with
        buf := ec.buf.write N.zero ec.cur
          (N.add x (N.mul (ec.buf.read N.zero (cursorBack ec.len ec.cur ec.d)) ec.fb)),
        cur := cursorNext ec.len ec.cur } := by
  unfold Echo.process bufRead bufWrite
  by_cases h : cursorBack ec.len ec.cur ec.d < ec.len
  · by_cases h2 : ec.cur < ec.len
    · simp only [h, h2, if_true]
      constructor
      · intro h'; cases h'; exact ⟨⟨trivial, trivial⟩, rfl, rfl⟩
      · rintro ⟨-, rfl, rfl⟩; rfl
    · simp only [h, h2, if_true, if_false]
      constructor
      · intro h'; cases h'
      · rintro ⟨⟨-, h'⟩, -⟩; exact h'.elim
  · simp only [h, if_false]
    constructor
    · intro h'; cases h'
    · rintro ⟨⟨h', -⟩, -⟩; exact h'.elim

omit [DecidableEq F] in
/-- An interpolated read of a space that is not empty answers. -/
theorem interpolate_eq {N : Num F} {size : Nat} (buf : Memory F) (r : F) (h : 0 < size) :
    interpolate N size buf r = .ok
      (N.add
        (N.mul (buf.read N.zero (indexMod size (N.floor r))) (N.sub N.one (N.sub r (N.ofInt (N.floor r)))))
        (N.mul (buf.read N.zero ((indexMod size (N.floor r) + 1) % size)) (N.sub r (N.ofInt (N.floor r))))) := by
  have h0 := indexMod_lt (N.floor r) h
  have h1 : (indexMod size (N.floor r) + 1) % size < size := Nat.mod_lt _ h
  simp only [interpolate, bufRead, h0, h1, if_true]

/-- The pitch shifter inside the dead-band: the input, and the read cursor at the anchor. -/
theorem PitchShifter.process_inside {p : Params F} {ps : PitchShifter F} {x ratio : F} (hw : ps.w < ps.size)
    (hd : outsideDeadband p (p.clamp ratio p.pitchMin p.pitchMax) = false) :
    ps.process p x ratio = .ok
      ({ ps with
          buf := ps.buf.write p.zero ps.w x, w := cursorNext ps.size ps.w,
          r := anchor p.toNum ps.size (cursorNext ps.size ps.w) ps.minGap }, x) := by
  simp [PitchShifter.process, bufWrite, hw, hd]

/-- The pitch shifter outside the dead-band. -/
theorem PitchShifter.process_outside {p : Params F} {ps : PitchShifter F} {x ratio : F} (hw : ps.w < ps.size)
    (hd : outsideDeadband p (p.clamp ratio p.pitchMin p.pitchMax) = true) :
    ∃ y, interpolate p.toNum ps.size (ps.buf.write p.zero ps.w x) ps.r = .ok y ∧
      ps.process p x ratio = .ok
        ({ ps with
            buf := ps.buf.write p.zero ps.w x, w := cursorNext ps.size ps.w,
            r := driftChecked p.toNum ps.size ps.minGap (cursorNext ps.size ps.w)
              (readAdvance p.toNum ps.size ps.r (p.clamp ratio p.pitchMin p.pitchMax)) }, y) := by
  have h := interpolate_eq (N := p.toNum) (ps.buf.write p.zero ps.w x) ps.r
    (Nat.lt_of_le_of_lt (Nat.zero_le _) hw)
  exact ⟨_, h, by simp [PitchShifter.process, bufWrite, hw, hd, h]⟩

/-- A pitch shifter that answers had its write cursor in its buffer, and wrote its input there. -/
theorem PitchShifter.process_ok {p : Params F} {ps ps' : PitchShifter F} {x ratio y : F}
    (h : ps.process p x ratio = .ok (ps', y)) :
    ps.w < ps.size ∧
      ∃ r, ps' = { ps with buf := ps.buf.write p.zero ps.w x, w := cursorNext ps.size ps.w, r := r } := by
  by_cases hw : ps.w < ps.size
  · refine ⟨hw, ?_⟩
    cases hd : outsideDeadband p (p.clamp ratio p.pitchMin p.pitchMax) with
    | false =>
      rw [PitchShifter.process_inside hw hd] at h
      cases h; exact ⟨_, rfl⟩
    | true =>
      obtain ⟨y', -, he⟩ := PitchShifter.process_outside (x := x) hw hd
      rw [he] at h
      cases h; exact ⟨_, rfl⟩
  · simp [PitchShifter.process, bufWrite, hw] at h

/-- Three combs step exactly when each does. -/
theorem combsStepped_ok {N : Num F} {cb cb' : Vector (Comb F) 3} {x m : F} :
    combsStepped N cb x = .ok (cb', m) ↔
      ∃ c0 c1 c2 o0 o1 o2, cb[0].process N x = .ok (c0, o0) ∧ cb[1].process N x = .ok (c1, o1) ∧
        cb[2].process N x = .ok (c2, o2) ∧ cb' = #v[c0, c1, c2] ∧
        m = N.div (N.add (N.add o0 o1) o2) (N.ofInt 3) := by
  unfold combsStepped
  constructor
  · intro h
    split at h
    · next c0 o0 c1 o1 c2 o2 h0 h1 h2 =>
      cases h; exact ⟨c0, c1, c2, o0, o1, o2, h0, h1, h2, rfl, rfl⟩
    all_goals cases h
  · rintro ⟨c0, c1, c2, o0, o1, o2, h0, h1, h2, rfl, rfl⟩
    rw [h0, h1, h2]

/-! ## Stages of the pipeline: what each leaves alone -/

omit [DecidableEq F] in
theorem State.filters_frame (N : Num F) (us : List (Fin 9)) : ∀ (s : State F) (v : F),
    (s.filters N us v).1 = { s with bq := (s.filters N us v).1.bq } := by
  induction us with
  | nil => intros; rfl
  | cons u us ih =>
    intro s v
    show ((s.filter N u v).1.filters N us (s.filter N u v).2).1 = _
    rw [ih]
    rfl

theorem State.shift_ok {p : Params F} {s t : State F} {x ratio y : F} :
    s.shift p x ratio = .ok (t, y) ↔ ∃ ps, s.ps.process p x ratio = .ok (ps, y) ∧ t = { s with ps := ps } := by
  unfold State.shift
  constructor
  · intro h
    split at h
    · next ps y' hp => cases h; exact ⟨ps, hp, rfl⟩
    · cases h
  · rintro ⟨ps, hp, rfl⟩; rw [hp]

theorem State.reverb_ok {p : Params F} {s t : State F} {x wet y : F} :
    s.reverb p x wet = .ok (t, y) ↔ ∃ cb, reverbProcess p s.cb x wet = .ok (cb, y) ∧ t = { s with cb := cb } := by
  unfold State.reverb
  constructor
  · intro h
    split at h
    · next cb y' hp => cases h; exact ⟨cb, hp, rfl⟩
    · cases h
  · rintro ⟨cb, hp, rfl⟩; rw [hp]

theorem State.echo_ok {N : Num F} {s t : State F} {x y : F} :
    s.echo N x = .ok (t, y) ↔ ∃ ec, s.ec.process N x = .ok (ec, y) ∧ t = { s with ec := ec } := by
  unfold State.echo
  constructor
  · intro h
    split at h
    · next ec y' hp => cases h; exact ⟨ec, hp, rfl⟩
    · cases h
  · rintro ⟨ec, hp, rfl⟩; rw [hp]

theorem State.comb_ok {N : Num F} {s t : State F} {k : Fin 3} {x y : F} :
    s.comb N k x = .ok (t, y) ↔ ∃ c, (s.cb.get k).process N x = .ok (c, y) ∧ t = s.setCb k c := by
  unfold State.comb
  constructor
  · intro h
    split at h
    · next c y' hp => cases h; exact ⟨c, hp, rfl⟩
    · cases h
  · rintro ⟨c, hp, rfl⟩; rw [hp]

/-- What one sample can do: the five stages that change the state, in order. -/
theorem State.sample_ok {p : Params F} {s t : State F} {h q : Half} (hs : s.sample p h = .ok (t, q)) :
    ∃ e f s3 v3 m v s5 v5 s6 v6,
      s.eqStage p (pcmIn p h) = e ∧ e.1.formantStage p.toNum e.2 = f ∧
      f.1.shift p f.2 f.1.act.pitchRatio = .ok (s3, v3) ∧
      s3.modulate p v3 = m ∧ m.1.toneStage p.toNum m.2 = v ∧
      v.1.reverb p v.2 v.1.act.wet = .ok (s5, v5) ∧
      s5.echo p.toNum v5 = .ok (s6, v6) ∧ t = s6 ∧
      q = pcmOut p (p.clamp (p.mul v6 s6.act.volume) p.clipLo p.clipHi) := by
  unfold State.sample at hs
  dsimp only at hs
  split at hs
  · cases hs
  · next s3 v3 h3 =>
    split at hs
    · cases hs
    · next s5 v5 h5 =>
      split at hs
      · cases hs
      · next s6 v6 h6 =>
        cases hs
        exact ⟨_, _, s3, v3, _, _, s5, v5, t, v6, rfl, rfl, h3, rfl, rfl, h5, h6, rfl, rfl⟩

/-- The samples of a frame, the first one taken apart. -/
theorem State.samples_cons_ok {p : Params F} {s t : State F} {h : Half} {hs qs : List Half} :
    s.samples p (h :: hs) = .ok (t, qs) ↔
      ∃ s' q qs', s.sample p h = .ok (s', q) ∧ s'.samples p hs = .ok (t, qs') ∧ qs = q :: qs' := by
  rw [State.samples]
  constructor
  · intro hh
    split at hh
    · cases hh
    · next s' q h1 =>
      split at hh
      · cases hh
      · next s'' qs' h2 => cases hh; exact ⟨s', q, qs', h1, h2, rfl⟩
  · rintro ⟨s', q, qs', h1, h2, rfl⟩
    rw [h1]; dsimp only; rw [h2]

@[simp] theorem State.samples_nil (p : Params F) (s : State F) : s.samples p [] = .ok (s, []) := rfl

end

/-! ## Meanings and steps -/

/-- `exec` is the parametric meaning at the spec's parameters. -/
theorem exec_eq (i : Instr) (s : State) : exec i s = execWith theParams i s := by cases i <;> rfl

/-- `step` is the parametric step at the spec's parameters. -/
theorem step_eq (s : State) : step s = stepWith theParams s := by
  have h : (exec : Instr → State → Result) = execWith theParams := funext fun i => funext fun s => exec_eq i s
  unfold step stepWith
  rw [← h]

/-- Words that hold no whole command hold no STOP. -/
theorem stopsOffered_of_incomplete {ws : List Word} (h : decode ws = .incomplete) : stopsOffered ws = 0 := by
  unfold stopsOffered
  cases ws with
  | nil => rfl
  | cons w ws => rw [List.length_cons, stopsAmong, h]

/-- Where no frame has gone past a STOP, taking a command keeps it so. -/
theorem State.tookCommand_late_zero {s : State F} (h : s.late = 0) (rest : List Word) :
    (s.tookCommand rest).late = 0 := by simp [h]

/-- Who goes where both ports are ready: the worker once its number of commands has gone ahead, unless a frame has
gone past a STOP that is still offered. -/
theorem State.workerGoes_iff (s : State F) :
    s.workerGoes = true ↔ (s.late = 0 ∨ stopsOffered s.ctrl = 0) ∧ Config.commandsFirst s.pick ≤ s.ahead := by
  simp [State.workerGoes]

/-- Whose turn it is where only a command is ready, only a frame is, and both are. -/
theorem State.turn_control {s : State F} (hc : s.commandReady = true) (hf : s.frameReady = false) :
    s.turn = .control s := by
  unfold State.turn; rw [hc, hf]

theorem State.turn_worker {s : State F} (hc : s.commandReady = false) (hf : s.frameReady = true) :
    s.turn = .worker s := by
  unfold State.turn; rw [hc, hf]

theorem State.turn_idle {s : State F} (hc : s.commandReady = false) (hf : s.frameReady = false) :
    s.turn = .idle := by
  unfold State.turn; rw [hc, hf]

theorem State.turn_both {s : State F} (hc : s.commandReady = true) (hf : s.frameReady = true) :
    s.turn = if s.workerGoes then .worker s else .control { s with ahead := s.ahead + 1 } := by
  unfold State.turn; rw [hc, hf]

end Sys2Proof.Machine
end

