-- ==== Sys2Proof/Laws/PerInstr.lean ====
section
/-! SUPPORT. Statements made for every instruction as syntax, one lemma per constructor: the first word of an
encoding is the one spec/opcode_table.json gives its row. -/

namespace Sys2Proof.Laws

/-- The `mask` and `match` columns of the instruction's row, and how many payload words the row gives it; none
for FRAME, whose row has no opcode. -/
def tableRow : Instr → Option (Word × Word × Nat)
  | .start _ _ => some (0xFFFFFFFE#32, 0x01000000#32, 1)
  | .stop => some (0xFFFFFFFF#32, 0x02000000#32, 0)
  | .apply _ => some (0xFFFFFFFF#32, 0x03000000#32, 18)
  | .bqByp _ => some (0xFF00FFFF#32, 0x10000000#32, 0)
  | .bqPeak _ _ _ _ _ => some (0xFF00FFFF#32, 0x11000000#32, 4)
  | .bqLsh _ _ _ _ => some (0xFF00FFFF#32, 0x12000000#32, 3)
  | .bqHsh _ _ _ _ => some (0xFF00FFFF#32, 0x13000000#32, 3)
  | .bqProc _ _ => some (0xFF00FFFF#32, 0x14000000#32, 1)
  | .psInit _ => some (0xFFFFFFFF#32, 0x20000000#32, 1)
  | .psProc _ _ => some (0xFFFFFFFF#32, 0x21000000#32, 2)
  | .cbInit _ _ _ => some (0xFF00FFFF#32, 0x30000000#32, 2)
  | .cbProc _ _ => some (0xFF00FFFF#32, 0x31000000#32, 1)
  | .rvInit _ => some (0xFFFFFFFF#32, 0x32000000#32, 1)
  | .rvProc _ _ => some (0xFFFFFFFF#32, 0x33000000#32, 2)
  | .ecInit _ => some (0xFFFFFFFF#32, 0x40000000#32, 1)
  | .ecCfg _ _ _ => some (0xFFFFFFFF#32, 0x41000000#32, 3)
  | .ecProc _ => some (0xFFFFFFFF#32, 0x42000000#32, 1)
  | .vpLoad _ => some (0xFFFF0000#32, 0x50000000#32, 0)
  | .vmInit _ => some (0xFFFFFFFF#32, 0x51000000#32, 1)
  | .vmProc _ => some (0xFFFFFFFF#32, 0x52000000#32, 1)
  | .lmFrame samples => some (0xFFFF0000#32, 0x60000000#32, samples.length)
  | .frame _ _ => none

/-- The encoding begins with the row's word and has as many payload words as the row says; a FRAME is a count
word and its samples on CAP. -/
def HeaderMatchesTable.Statement (i : Instr) : Prop :=
  match tableRow i, encode i with
  | some (mask, value, k), .ctrl (w :: payload) => w &&& mask = value ∧ payload.length = k
  | none, .cap f => i = .frame f.count f.samples
  | _, _ => False

/-- A unit field is outside the mask of its row. -/
theorem unit_word (o : Opcode) (u : BitVec 8) : commandWord o u 0 &&& 0xFF00FFFF#32 = o.bits ++ 0#8 ++ 0#16 := by
  have h : (0xFF00FFFF#32 : Word) = 0xFF#8 ++ 0x00#8 ++ 0xFFFF#16 := by decide
  rw [h, commandWord, BitVec.and_append, BitVec.and_append]
  congr 2
  · exact BitVec.and_allOnes
  · exact BitVec.and_zero

/-- An immediate operand is outside the mask of its row. -/
theorem imm_word (o : Opcode) (imm : BitVec 16) :
    commandWord o 0 imm &&& 0xFFFF0000#32 = o.bits ++ 0#8 ++ 0#16 := by
  have h : (0xFFFF0000#32 : Word) = 0xFF#8 ++ 0xFF#8 ++ 0x0000#16 := by decide
  rw [h, commandWord, BitVec.and_append, BitVec.and_append]
  congr 2
  · exact BitVec.and_allOnes
  · exact BitVec.and_zero

theorem HeaderMatchesTable.start (ok : Bool) (sr : Word) :
    HeaderMatchesTable.Statement (.start ok sr) := by
  cases ok <;> exact ⟨rfl, rfl⟩

theorem HeaderMatchesTable.stop :
    HeaderMatchesTable.Statement .stop := ⟨rfl, rfl⟩

theorem HeaderMatchesTable.apply (p : DspParameters) :
    HeaderMatchesTable.Statement (.apply p) := ⟨rfl, rfl⟩

theorem HeaderMatchesTable.bqByp (u : BitVec 8) :
    HeaderMatchesTable.Statement (.bqByp u) := ⟨unit_word .bqByp u, rfl⟩

theorem HeaderMatchesTable.bqPeak (u : BitVec 8) (freq gainDb q : NUM) (sampleRate : Word) :
    HeaderMatchesTable.Statement (.bqPeak u freq gainDb q sampleRate) := ⟨unit_word .bqPeak u, rfl⟩

theorem HeaderMatchesTable.bqLsh (u : BitVec 8) (freq gainDb : NUM) (sampleRate : Word) :
    HeaderMatchesTable.Statement (.bqLsh u freq gainDb sampleRate) := ⟨unit_word .bqLsh u, rfl⟩

theorem HeaderMatchesTable.bqHsh (u : BitVec 8) (freq gainDb : NUM) (sampleRate : Word) :
    HeaderMatchesTable.Statement (.bqHsh u freq gainDb sampleRate) := ⟨unit_word .bqHsh u, rfl⟩

theorem HeaderMatchesTable.bqProc (u : BitVec 8) (x : NUM) :
    HeaderMatchesTable.Statement (.bqProc u x) := ⟨unit_word .bqProc u, rfl⟩

theorem HeaderMatchesTable.psInit (sr : Word) :
    HeaderMatchesTable.Statement (.psInit sr) := ⟨rfl, rfl⟩

theorem HeaderMatchesTable.psProc (x ratio : NUM) :
    HeaderMatchesTable.Statement (.psProc x ratio) := ⟨rfl, rfl⟩

theorem HeaderMatchesTable.cbInit (u : BitVec 8) (len : Word) (fb : NUM) :
    HeaderMatchesTable.Statement (.cbInit u len fb) := ⟨unit_word .cbInit u, rfl⟩

theorem HeaderMatchesTable.cbProc (u : BitVec 8) (x : NUM) :
    HeaderMatchesTable.Statement (.cbProc u x) := ⟨unit_word .cbProc u, rfl⟩

theorem HeaderMatchesTable.rvInit (sr : Word) :
    HeaderMatchesTable.Statement (.rvInit sr) := ⟨rfl, rfl⟩

theorem HeaderMatchesTable.rvProc (x wet : NUM) :
    HeaderMatchesTable.Statement (.rvProc x wet) := ⟨rfl, rfl⟩

theorem HeaderMatchesTable.ecInit (len : Word) :
    HeaderMatchesTable.Statement (.ecInit len) := ⟨rfl, rfl⟩

theorem HeaderMatchesTable.ecCfg (delaySamples : Word) (mix feedback : NUM) :
    HeaderMatchesTable.Statement (.ecCfg delaySamples mix feedback) := ⟨rfl, rfl⟩

theorem HeaderMatchesTable.ecProc (x : NUM) :
    HeaderMatchesTable.Statement (.ecProc x) := ⟨rfl, rfl⟩

theorem HeaderMatchesTable.vpLoad (preset : BitVec 16) :
    HeaderMatchesTable.Statement (.vpLoad preset) := ⟨imm_word .vpLoad preset, rfl⟩

theorem HeaderMatchesTable.vmInit (sr : Word) :
    HeaderMatchesTable.Statement (.vmInit sr) := ⟨rfl, rfl⟩

theorem HeaderMatchesTable.vmProc (x : NUM) :
    HeaderMatchesTable.Statement (.vmProc x) := ⟨rfl, rfl⟩

theorem HeaderMatchesTable.lmFrame (samples : List Half) :
    HeaderMatchesTable.Statement (.lmFrame samples) := ⟨imm_word .lmFrame (BitVec.ofNat 16 samples.length), List.length_map _⟩

theorem HeaderMatchesTable.frame (n : Word) (samples : List Half) :
    HeaderMatchesTable.Statement (.frame n samples) := rfl

end Sys2Proof.Laws
end

