-- ==== Sys2Proof/Machine/Assembly.lean ====
section
/-! DEFINITION. What stands between the wire record of the control surface and an APPLY command
(spec/30_encoding.md R110, R111, R113): the matching of preset names and the defaults of omitted fields. The block
itself receives codes (R112), so no meaning uses this file. -/

namespace Sys2Proof.Machine

open Sys2Proof

/-- A name in lower case, letter by letter (log 26). -/
def lowered (name : String) : List Char := name.toList.map Char.toLower

/-- The preset of a name: matched case-insensitively and not trimmed; every other name and an absent one give
Normal (R113). -/
def Preset.ofName : Option String → Preset
  | none => .normal
  | some name =>
    let n := lowered name
    if n = "child".toList then .child
    else if n = "funny".toList then .funny
    else if n = "robot".toList then .robot
    else if n = "deep".toList then .deep
    else if n = "alien".toList then .alien
    else .normal

/-- How a record names its preset: by name or by code (R110 (d)). -/
inductive PresetOperand where
  | name (s : String)
  | code (c : Word)
deriving DecidableEq, Repr

/-- The code a preset operand stands for; an omitted one is Normal (R110 (c)). -/
def presetCode : Option PresetOperand → Word
  | none => 0#32
  | some (.name s) => BitVec.ofNat 32 (Preset.ofName (some s)).code.val
  | some (.code c) => BitVec.ofNat 32 (Preset.ofCode c.toInt).code.val

/-- APPLY's record with its omitted fields (R110). -/
structure ApplyForm where
  eq            : List EqOperand
  pitch         : Option NUM
  formant       : Option Word
  reverb        : Option Bool
  reverbWet     : Option NUM
  echo          : Option Bool
  echoDelayMs   : Option Word
  echoFeedback  : Option NUM
  volume        : Option NUM
  voicePreset   : Option PresetOperand
deriving DecidableEq, Repr

/-- The slot of a list at a position; a missing one is 0 dB and disabled (R110 (a)). -/
def eqSlotAt (eq : List EqOperand) (k : Nat) : EqOperand := eq.getD k ⟨0#32, NUM.zero⟩

/-- The operands of APPLY that a record stands for; none where its list is longer than five (R110). An omitted
field takes the value of the neutral snapshot. -/
def ApplyForm.expand (a : ApplyForm) : Option DspParameters :=
  if 5 < a.eq.length then none
  else some
    { eq := #v[eqSlotAt a.eq 0, eqSlotAt a.eq 1, eqSlotAt a.eq 2, eqSlotAt a.eq 3, eqSlotAt a.eq 4]
      pitchRatio := a.pitch.getD NUM.one
      formantShift := a.formant.getD 0#32
      reverbEnabled := a.reverb.getD false
      echoEnabled := a.echo.getD false
      reverbWet := a.reverbWet.getD NUM.zero
      echoDelayMs := a.echoDelayMs.getD 0#32
      echoFeedback := a.echoFeedback.getD NUM.zero
      volume := a.volume.getD NUM.one
      voicePreset := presetCode a.voicePreset }

/-- The control surface of the source (R111): `start()`, `stop()` and `apply(p)` as commands. -/
inductive Call where
  /-- `start()`, with what the platform collaborator supplies. -/
  | start (endpoints : Bool) (sampleRate : Word)
  /-- `stop()`. -/
  | stop
  /-- `apply(p)`. -/
  | apply (p : ApplyForm)
deriving DecidableEq, Repr

/-- The command of a call (R111); none where the record cannot be assembled. -/
def Call.command : Call → Option Instr
  | .start endpoints sampleRate => some (.start endpoints sampleRate)
  | .stop => some .stop
  | .apply p => p.expand.map Instr.apply

end Sys2Proof.Machine
end

