-- ==== Sys2Proof/Tests/Slice0.lean ====
section
/-! SUPPORT. Tests: what the well-formedness checks refuse, words written out from the spec's encodings, single
steps from the vectors of spec/95_test_vectors.md, and for every obligation with hypotheses a state and operands
that meet them. -/

namespace Sys2Proof.Tests

open Sys2Proof Sys2Proof.Machine Sys2Proof.Claims

set_option Elab.async false

/-! ## Helpers -/

/-- 0.5, 2.0, 0.25, infinity and a NaN. -/
def half : NUM := ⟨0x3F000000#32⟩
def two : NUM := ⟨0x40000000#32⟩
def quarter : NUM := ⟨0x3E800000#32⟩
def inf : NUM := ⟨0x7F800000#32⟩
def nan : NUM := ⟨0x7FC00000#32⟩

/-- The outcome is a next state. -/
def isNext : Result → Bool
  | .next _ => true
  | .fault _ => false
  | .refused _ => false

/-- The next state. -/
def after : Result → State
  | .next t => t
  | .fault _ => State.reset
  | .refused _ => State.reset

/-- The state after an instruction. -/
def run (i : Instr) (s : State) : State := after (exec i s)

/-- The last thing that left the block. -/
def last (s : State) : Option Output := s.out.getLast?

theorem next_after {o : Result} (h : isNext o = true) : o = .next (after o) := by
  cases o with
  | next _ => rfl
  | fault _ => cases h
  | refused _ => cases h

/-- Running at 100 samples a second with the neutral snapshot. -/
def running : State := State.reset.started theParams 100

/-- The neutral operands of APPLY. -/
def neutral : DspParameters where
  eq := Vector.replicate 5 ⟨0#32, NUM.zero⟩
  pitchRatio := NUM.one
  formantShift := 0#32
  reverbEnabled := false
  echoEnabled := false
  reverbWet := NUM.zero
  echoDelayMs := 0#32
  echoFeedback := NUM.zero
  volume := NUM.one
  voicePreset := 0#32

/-! ## Well-formedness: each check refuses -/

theorem test_wf_apply_gain :
    (Instr.apply { neutral with eq := neutral.eq.set 4 ⟨1000#32, inf⟩ }).wf = false := by decide
theorem test_wf_apply_pitch : (Instr.apply { neutral with pitchRatio := nan }).wf = false := by decide
theorem test_wf_apply_wet : (Instr.apply { neutral with reverbWet := inf }).wf = false := by decide
theorem test_wf_apply_feedback : (Instr.apply { neutral with echoFeedback := nan }).wf = false := by decide
theorem test_wf_apply_volume : (Instr.apply { neutral with volume := inf }).wf = false := by decide
theorem test_wf_apply_neutral : (Instr.apply neutral).wf = true := by decide
theorem test_wf_bqPeak :
    (Instr.bqPeak 0#8 nan half half 1#32).wf = false ∧ (Instr.bqPeak 0#8 half nan half 1#32).wf = false ∧
      (Instr.bqPeak 0#8 half half inf 1#32).wf = false := by decide
theorem test_wf_bqLsh :
    (Instr.bqLsh 0#8 nan half 1#32).wf = false ∧ (Instr.bqLsh 0#8 half nan 1#32).wf = false := by decide
theorem test_wf_bqHsh :
    (Instr.bqHsh 0#8 nan half 1#32).wf = false ∧ (Instr.bqHsh 0#8 half nan 1#32).wf = false := by decide
theorem test_wf_bqProc : (Instr.bqProc 0#8 inf).wf = false := by decide
theorem test_wf_psProc : (Instr.psProc nan half).wf = false ∧ (Instr.psProc half nan).wf = false := by decide
theorem test_wf_cbInit : (Instr.cbInit 0#8 3#32 nan).wf = false := by decide
theorem test_wf_cbProc : (Instr.cbProc 0#8 nan).wf = false := by decide
theorem test_wf_rvProc : (Instr.rvProc inf half).wf = false ∧ (Instr.rvProc half inf).wf = false := by decide
theorem test_wf_ecCfg : (Instr.ecCfg 0#32 nan half).wf = false ∧ (Instr.ecCfg 0#32 half nan).wf = false := by decide
theorem test_wf_ecProc : (Instr.ecProc nan).wf = false := by decide
theorem test_wf_vmProc : (Instr.vmProc nan).wf = false := by decide
theorem test_wf_lmFrame :
    (Instr.lmFrame (List.replicate 65536 0#16)).wf = false ∧
      (Instr.lmFrame (List.replicate 65535 0#16)).wf = true := by
  simp only [Instr.wf, List.length_replicate]; decide
theorem test_wf_frame :
    (Instr.frame 2#32 [0#16]).wf = false ∧ (Instr.frame (-1#32) [0#16]).wf = false ∧
      (Instr.frame (-1#32) []).wf = true := by decide

/-! ## Decoding: words written from R90 to R104, the opcode in bits 31 to 24, `u` in 23 to 16, `imm` in 15 to 0 -/

theorem test_decode_start : decode [0x01000001#32, 0x0000BB80#32, 7#32] = .command (.start true 48000#32) [7#32] := by
  decide
theorem test_decode_start_not_ok : decode [0x01000000#32, 0xFFFFFFFF#32] = .command (.start false (-1#32)) [] := by
  decide
theorem test_decode_stop : decode [0x02000000#32, 0x02000000#32] = .command .stop [0x02000000#32] := by decide
theorem test_decode_apply :
    decode [0x03000000#32, 60#32, 0x3F800000#32, 230#32, 0x3F000000#32, 910#32, 0x40000000#32, 3600#32, 0x3E800000#32,
      14000#32, 0xBF800000#32, 0x3F000000#32, 0xFFFFFFFA#32, 2#32, 0x3E800000#32, 240#32, 0x3F000000#32,
      0x3F800000#32, 5#32] =
    .command (.apply
      { eq := #v[⟨60#32, NUM.one⟩, ⟨230#32, half⟩, ⟨910#32, two⟩, ⟨3600#32, quarter⟩, ⟨14000#32, ⟨0xBF800000#32⟩⟩],
        pitchRatio := half, formantShift := (-6#32), reverbEnabled := false, echoEnabled := true,
        reverbWet := quarter, echoDelayMs := 240#32, echoFeedback := half, volume := NUM.one,
        voicePreset := 5#32 }) [] := by decide
theorem test_decode_bqByp : decode [0x10080000#32] = .command (.bqByp 8#8) [] := by decide
theorem test_decode_bqPeak :
    decode [0x11FF0000#32, 0x3F000000#32, 0x40000000#32, 0x3E800000#32, 8000#32] =
      .command (.bqPeak 255#8 half two quarter 8000#32) [] := by decide
theorem test_decode_bqLsh :
    decode [0x12050000#32, 0x3F000000#32, 0x40000000#32, 8000#32] = .command (.bqLsh 5#8 half two 8000#32) [] := by
  decide
theorem test_decode_bqHsh :
    decode [0x13060000#32, 0x3F000000#32, 0x40000000#32, 8000#32] = .command (.bqHsh 6#8 half two 8000#32) [] := by
  decide
theorem test_decode_bqProc : decode [0x14010000#32, 0x80000000#32] = .command (.bqProc 1#8 ⟨0x80000000#32⟩) [] := by
  decide
theorem test_decode_psInit : decode [0x20000000#32, 100#32] = .command (.psInit 100#32) [] := by decide
theorem test_decode_psProc :
    decode [0x21000000#32, 0x3F000000#32, 0x40000000#32] = .command (.psProc half two) [] := by decide
theorem test_decode_cbInit :
    decode [0x30020000#32, 3#32, 0x3F000000#32] = .command (.cbInit 2#8 3#32 half) [] := by decide
theorem test_decode_cbProc : decode [0x31010000#32, 0x3F000000#32] = .command (.cbProc 1#8 half) [] := by decide
theorem test_decode_rvInit : decode [0x32000000#32, 100#32] = .command (.rvInit 100#32) [] := by decide
theorem test_decode_rvProc :
    decode [0x33000000#32, 0x3F000000#32, 0x3E800000#32] = .command (.rvProc half quarter) [] := by decide
theorem test_decode_ecInit : decode [0x40000000#32, 4#32] = .command (.ecInit 4#32) [] := by decide
theorem test_decode_ecCfg :
    decode [0x41000000#32, 2#32, 0x3F000000#32, 0x3E800000#32] = .command (.ecCfg 2#32 half quarter) [] := by decide
theorem test_decode_ecProc : decode [0x42000000#32, 0x3F000000#32] = .command (.ecProc half) [] := by decide
theorem test_decode_vpLoad : decode [0x5000FFFF#32] = .command (.vpLoad 0xFFFF#16) [] := by decide
theorem test_decode_vmInit : decode [0x51000000#32, 220#32] = .command (.vmInit 220#32) [] := by decide
theorem test_decode_vmProc : decode [0x52000000#32, 0x3F000000#32] = .command (.vmProc half) [] := by decide
theorem test_decode_lmFrame :
    decode [0x60000003#32, 0x00007FFF#32, 0xFFFF8000#32, 1#32, 9#32] =
      .command (.lmFrame [0x7FFF#16, 0x8000#16, 1#16]) [9#32] := by decide
theorem test_decode_frame :
    decodeFrame none ⟨3#32, [0#16, 0x03E8#16, 0xFC18#16]⟩ = some (.frame 3#32 [0#16, 1000#16, (-1000#16)]) ∧
      decodeFrame none ⟨0xFFFFFFFF#32, []⟩ = some (.frame (-1#32) []) ∧
      decodeFrame none ⟨2#32, [0#16]⟩ = none := by decide

/-- R263 (a) to (e), and a payload that is not there yet. -/
theorem test_decode_unassigned : decode [0x7F000000#32, 1#32] = .illegal .unassignedOpcode [1#32] := by decide
theorem test_decode_zero_opcode : decode [0#32] = .illegal .unassignedOpcode [] := by decide
theorem test_decode_reserved_imm : decode [0x02000001#32] = .illegal .reservedField [] := by decide
theorem test_decode_reserved_start : decode [0x01000002#32, 0xAC44#32] = .illegal .reservedField [] := by decide
theorem test_decode_reserved_unit : decode [0x40010000#32, 4#32] = .illegal .reservedField [] := by decide
theorem test_decode_flags :
    decode (0x03000000#32 :: (List.replicate 12 0#32 ++ 4#32 :: List.replicate 5 0#32)) =
      .illegal .malformedFlags [] := by decide
theorem test_decode_sample : decode [0x60000001#32, 0x00008000#32] = .illegal .malformedSample [] := by decide
theorem test_decode_nonFinite : decode [0x31010000#32, 0x7FC00000#32] = .illegal .nonFinite [] := by decide
theorem test_decode_incomplete : decode [0x21000000#32, 0x3F000000#32] = .incomplete := by decide

/-- The opcode table's numbering: the first word lowest; each row's words, and FRAME's count. -/
theorem test_table_start : decodeTableWord 64 0x0000AC4401000001 = some (.start true 44100#32) := by decide
theorem test_table_vpLoad : decodeTableWord 32 0x50000003 = some (.vpLoad 3#16) := by decide
theorem test_table_short : decodeTableWord 32 0x14000000 = some (.bqProc 0#8 NUM.zero) := by decide
theorem test_table_frame : decodeTableWord 64 0x0004000300000002 = some (.frame 2#32 [3#16, 4#16]) := by decide

/-! ## Configuration -/

/-- `n / d` in NUM: one division of exact integers, so the nearest NUM. -/
def ratio (n d : Int) : NUM := Num.binary32.ratio n d

/-- Words the spec prints for a decimal: 0.35 (R101), 0.95 and 0.02 as sign, exponent and fraction by hand. -/
theorem test_decimals :
    ratio 35 100 = ⟨0x3EB33333#32⟩ ∧ ratio 95 100 = ⟨0x3F733333#32⟩ ∧ ratio 2 100 = ⟨0x3CA3D70A#32⟩ := by
  decide +kernel

/-- Another carrier than the default (R9): exact rationals, with functions that keep the laws of R10 and stand for
nothing else. -/
def rationals : Num ℚ where
  add := (· + ·)
  sub := (· - ·)
  mul := (· * ·)
  div := (· / ·)
  sqrt := id
  sin := id
  cos := id
  tanh := id
  pow10 := fun _ => 1
  floor := fun v => ⌊v⌋
  ofInt := fun i => i
  roundToInt := fun v => if v < 0 then -⌊-v + 1 / 2⌋ else ⌊v + 1 / 2⌋
  lt := fun a b => decide (a < b)
  le := fun a b => decide (a ≤ b)
  pi := 355 / 113
  zero := 0
  one := 1
  neg := (- ·)
  abs := fun a => if a < 0 then -a else a
  isNaN := fun _ => false
  isFinite := fun _ => true
  f32 := fun w => (NUM.mk w).scaled (-149) / 2 ^ 149
  encF32 := fun v => ((NUM.ofInt v.num).div (NUM.ofInt v.den)).bits

/-- Its only zero is 0. -/
theorem rationals_isZero {z : ℚ} : rationals.isZero z = true ↔ z = 0 := by
  rw [Num.isZero, Bool.and_eq_true]
  simp only [rationals, decide_eq_true_eq]
  exact le_antisymm_iff.symm

/-- Its `round` gives integers back. -/
theorem rationals_round_ofInt (i : ℤ) : rationals.roundToInt (rationals.ofInt i) = i := by
  have half : ⌊(1 / 2 : ℚ)⌋ = 0 := by decide +kernel
  show (if (i : ℚ) < 0 then -⌊-(i : ℚ) + 1 / 2⌋ else ⌊(i : ℚ) + 1 / 2⌋) = i
  split
  · rw [← Int.cast_neg, Int.floor_intCast_add, half]; omega
  · rw [Int.floor_intCast_add, half]; omega

/-- Dividing by 32768 keeps its order. -/
theorem rationals_quotient_order (i j : ℤ) :
    decide ((i : ℚ) / 32768 < (j : ℚ) / 32768) = decide (i < j) ∧
      decide ((i : ℚ) / 32768 ≤ (j : ℚ) / 32768) = decide (i ≤ j) := by
  have h : (0 : ℚ) < 32768 := by decide +kernel
  simp [div_lt_div_iff_of_pos_right h, div_le_div_iff_of_pos_right h]

/-- The laws of R10 hold of it. -/
theorem rationals_lawful : rationals.Lawful where
  zero_isZero := rationals_isZero.2 rfl
  finite_of_isZero _ _ := rfl
  one_finite := rfl
  not_nan_of_finite _ _ := rfl
  one_mul x _ := ⟨Rat.one_mul x, Rat.mul_one x⟩
  add_zero x z _ hz := by
    obtain rfl := rationals_isZero.1 hz
    exact ⟨.inl (Rat.add_zero x), .inl (Rat.zero_add x)⟩
  zero_mul x z _ hz := by
    obtain rfl := rationals_isZero.1 hz
    exact ⟨rationals_isZero.2 (Rat.zero_mul x), rationals_isZero.2 (Rat.mul_zero x)⟩
  sub_self x _ := sub_self x
  zero_sub_zero z z' hz hz' := by
    obtain rfl := rationals_isZero.1 hz
    obtain rfl := rationals_isZero.1 hz'
    exact rationals_isZero.2 (sub_self (0 : ℚ))
  one_sub_zero z hz := by
    obtain rfl := rationals_isZero.1 hz
    exact ⟨sub_zero (1 : ℚ), Rat.add_zero 1⟩
  div_one x _ := div_one x
  div_self x _ hx := div_self fun h => by simp [rationals_isZero.2 h] at hx
  ofInt_zero := Int.cast_zero
  ofInt_one := Int.cast_one
  ofInt_succ i _ _ := Int.cast_add i 1 |>.trans (congrArg _ Int.cast_one)
  ofInt_finite _ _ _ := rfl
  ofInt_order i j _ _ _ _ := ⟨decide_eq_decide.2 Int.cast_lt, decide_eq_decide.2 Int.cast_le⟩
  round_ofInt i _ _ := rationals_round_ofInt i
  zero_div _ _ := zero_div _
  quotient_succ i _ _ := by
    show ((i + 1 : ℤ) : ℚ) / _ = (i : ℚ) / _ + 1 / _
    rw [Int.cast_add, Int.cast_one, add_div]
  quotient_finite _ _ _ := rfl
  quotient_order i j _ _ _ _ := rationals_quotient_order i j
  product_exact i _ _ := div_mul_cancel₀ _ (by decide +kernel)
  sin_zero := rfl
  tanh_zero := rfl
  sqrt_zero := rfl
  pow10_zero := rfl

/-- R172 over the rationals: a comb of feedback 1/2 holding 5, given 7, answers 5 and stores 7 + 5/2. -/
theorem test_other_carrier :
    ((Comb.mk 2 (1 / 2) 0 [(0, 5)] true).process rationals (7 : ℚ)).toOption =
      some (⟨2, 1 / 2, 1, [(0, 19 / 2)], true⟩, 5) := by
  decide +kernel
/-- R12, R64: -1.5 as binary32 is read exactly and written back. -/
theorem test_other_carrier_words :
    rationals.f32 0xBFC00000#32 = -3 / 2 ∧ rationals.encF32 (-3 / 2) = 0xBFC00000#32 ∧
      rationals.roundToInt (-3 / 2) = -2 ∧ rationals.floor (-3 / 2) = -2 := by decide +kernel
/-- R174: COMB_LEN as configured, and its floor of 1. -/
theorem test_comb_len :
    (combsCreated { theParams with combLen := some (fun k _ => k.val * 10) } 44100).map Comb.len = #v[1, 10, 20] := by
  decide +kernel
/-- EQ_BANDS of 2 leaves the third slot out (R6). -/
theorem test_eq_bands :
    derivedEqOn { theParams with eqBands := 2 }
      { Snapshot.neutral Num.binary32 with eq := #v[⟨0, NUM.zero⟩, ⟨0, NUM.zero⟩, ⟨1000, two⟩, ⟨0, NUM.zero⟩, ⟨0, NUM.zero⟩] } =
      false := by decide +kernel

/-! ## Single steps -/

/-- P1 step 1, R231: the response and three of the fields it leaves; and a failure. -/
theorem test_start : (step { State.reset with ctrl := [0x01000001#32, 0xAC44#32] } |> after).out =
    [.response 0#32 1#32] := by decide +kernel
theorem test_start_fail : run (.start true 0#32) State.reset =
    { State.reset with out := [.response 0x01000000#32 0#32] } := by decide +kernel
/-- P5: STOP from reset changes nothing; P1 step 4: it destroys every unit. -/
theorem test_stop : run .stop State.reset = { State.reset with out := [.response 0#32 0#32] } := by decide +kernel
theorem test_stop_running : (run .stop running).run = .stopped ∧ (run .stop running).ps.init = false := by
  decide +kernel
/-- R235: out-of-range fields are clamped, an unknown preset is Normal. -/
theorem test_apply :
    (run (.apply
      { neutral with
        pitchRatio := ⟨0x41100000#32⟩, formantShift := (-13#32), echoDelayMs := (-1#32),
        echoFeedback := ⟨0x40E00000#32⟩, voicePreset := 6#32 }) State.reset).snap =
    { Snapshot.neutral Num.binary32 with pitchRatio := two, formantShift := -12, echoFeedback := ratio 95 100 } := by
  decide +kernel
theorem test_apply_pends : (run (.apply neutral) running).pend = true ∧ (run (.apply neutral) running).bq = running.bq := by
  decide +kernel
/-- P5 step 3, B5. -/
theorem test_bqByp : (run (.bqByp 8#8) State.reset).bq[8] = bypassRecord := by decide +kernel
/-- B3: a frequency of −5 stores the bypass record. -/
theorem test_bqPeak : (run (.bqPeak 0#8 ⟨0xC0A00000#32⟩ two half 44100#32) State.reset).bq[0] = bypassRecord := by
  decide +kernel
theorem test_bqLsh : (run (.bqLsh 1#8 NUM.one two 0#32) State.reset).bq[1] = bypassRecord := by decide +kernel
theorem test_bqHsh : (run (.bqHsh 9#8 NUM.one two 44100#32) State.reset).out =
    [.response 0x83000000#32 0#32] := by decide +kernel

/-- The coefficients of vector B1. -/
def vectorB1 : Biquad :=
  ⟨⟨0x3F8618BE#32⟩, ⟨0xBFF14765#32⟩, ⟨0x3F5B4DD6#32⟩, ⟨0xBFF14765#32⟩, ⟨0x3F677F52#32⟩, NUM.zero, NUM.zero, .peaking,
    true⟩
/-- P6 step 2. -/
theorem test_bqProc : last (run (.bqProc 0#8 NUM.one) { State.reset with bq := State.reset.bq.set 0 vectorB1 }) =
    some (.response 0#32 0x3F8618BE#32) := by decide +kernel
/-- R125 by hand: `y = 0.5 + 0.25`, `z1 = (0.25 − 0.5·0.75) + 1`, `z2 = 2 − 0.25·0.75`. -/
theorem test_bqProc_memory : (Biquad.mk half quarter two half quarter quarter NUM.one .lowShelf true).process Num.binary32 NUM.one =
    (⟨half, quarter, two, half, quarter, ratio 7 8, ratio 29 16, .lowShelf, true⟩, ratio 3 4) := by decide +kernel
/-- S1. -/
theorem test_psInit : (run (.psInit 100#32) State.reset).ps = ⟨200, 80, 0, NUM.ofInt 120, [], true⟩ := by
  decide +kernel
theorem test_psInit_small : (run (.psInit 32#32) State.reset).ps = ⟨64, 64, 0, NUM.zero, [], true⟩ := by
  decide +kernel
/-- S5: after 200 calls `PSBUF[i] = i + 1`; the first resampled output is 121. -/
theorem test_psProc :
    last (run (.psProc NUM.one ⟨0x3F400000#32⟩) { State.reset with
      ps := { PitchShifter.created theParams 100 with buf := [(120, NUM.ofInt 121), (121, NUM.ofInt 122)] } }) =
    some (.response 0#32 (NUM.ofInt 121).bits) := by decide +kernel
/-- U5: in binary32 the ratios 0.98 and 1.02 lie inside the dead-band: the call returns its input. -/
theorem test_psProc_deadband :
    last (run (.psProc half (ratio 98 100)) { State.reset with ps := PitchShifter.created theParams 100 }) =
      some (.response 0#32 half.bits) ∧
    last (run (.psProc half (ratio 102 100)) { State.reset with ps := PitchShifter.created theParams 100 }) =
      some (.response 0#32 half.bits) := by decide +kernel
/-- R1. -/
theorem test_cbInit : (run (.cbInit 0#8 3#32 half) State.reset).cb[0] = ⟨3, half, 0, [], true⟩ := by decide +kernel
theorem test_cbProc :
    run (.cbProc 0#8 NUM.zero) { State.reset with cb := State.reset.cb.set 0 ⟨3, half, 0, [(0, NUM.one)], true⟩ } =
    { State.reset with
      cb := State.reset.cb.set 0 ⟨3, half, 1, [(0, half)], true⟩, out := [.response 0#32 NUM.one.bits] } := by
  decide +kernel
/-- R2. -/
theorem test_rvInit : (run (.rvInit 44100#32) State.reset).cb.map Comb.len = #v[1310, 1636, 1813] := by
  decide +kernel
theorem test_rvInit_one : (run (.rvInit 1#32) State.reset).cb.map Comb.len = #v[1, 1, 1] := by decide +kernel
/-- R3, first call, and R5. -/
theorem test_rvProc : last (run (.rvProc NUM.one half) { State.reset with cb := combsCreated theParams 100 }) =
    some (.response 0#32 half.bits) := by decide +kernel
theorem test_rvProc_dry :
    run (.rvProc half (ratio (-3) 10)) { State.reset with cb := combsCreated theParams 100 } =
    { State.reset with cb := combsCreated theParams 100, out := [.response 0#32 half.bits] } := by decide +kernel
theorem test_ecInit : (run (.ecInit 4#32) State.reset).ec = ⟨4, 0, 0, NUM.zero, NUM.zero, [], true⟩ := by
  decide +kernel
/-- E3, E6. -/
theorem test_ecCfg_grows : (run (.ecCfg 4#32 half half) { State.reset with ec :=
    ⟨4, 2, 0, NUM.zero, NUM.zero, [(1, NUM.one)], true⟩ }).ec = ⟨6, 0, 4, half, half, [], true⟩ := by decide +kernel
theorem test_ecCfg_clamps : (run (.ecCfg (-7#32) (ratio 15 10) (ratio 99 100)) { State.reset with ec :=
    ⟨4, 2, 0, NUM.zero, NUM.zero, [(1, NUM.one)], true⟩ }).ec =
    ⟨4, 2, 0, NUM.one, ratio 95 100, [(1, NUM.one)], true⟩ := by decide +kernel
/-- E2, third call: 0.5; E5, fourth call: 2.5. -/
theorem test_ecProc : last (run (.ecProc NUM.zero) { State.reset with ec := ⟨4, 2, 2, half, half, [(0, NUM.one)], true⟩ }) =
    some (.response 0#32 half.bits) := by decide +kernel
theorem test_ecProc_no_delay :
    run (.ecProc (NUM.ofInt 4)) { State.reset with ec := ⟨3, 0, 0, half, half, [(0, NUM.one)], true⟩ } =
    { State.reset with
      ec := ⟨3, 1, 0, half, half, [(0, ratio 9 2)], true⟩, out := [.response 0#32 (ratio 5 2).bits] } := by
  decide +kernel
/-- V1. -/
theorem test_vpLoad : (run (.vpLoad 3#16) State.reset).pc = ⟨PresetRow.robot Num.binary32, true⟩ := by decide +kernel
theorem test_vpLoad_unknown : (run (.vpLoad 6#16) State.reset).pc = ⟨PresetRow.normal Num.binary32, true⟩ := by decide +kernel
theorem test_vmInit : (run (.vmInit 220#32) State.reset).vm = ⟨NUM.zero, NUM.zero, NUM.zero, 220, true⟩ := by
  decide +kernel
/-- M1, Child at 20: the first output is 0.5 and the tremolo phase then stands at π/2. -/
theorem test_vmProc :
    run (.vmProc half) { State.reset with
      vm := VoiceModulator.created Num.binary32 20, pc := PresetConfig.loaded theParams .child } =
    { State.reset with
      vm := ⟨⟨0x3FC90FDB#32⟩, NUM.zero, NUM.zero, 20, true⟩, pc := PresetConfig.loaded theParams .child,
      out := [.response 0#32 half.bits] } := by decide +kernel
/-- M1, Funny at 44100: the first output is 0.45. -/
theorem test_vmProc_ring :
    last (run (.vmProc half) { State.reset with
      vm := VoiceModulator.created Num.binary32 44100, pc := PresetConfig.loaded theParams .funny }) =
    some (.response 0#32 (ratio 45 100).bits) := by decide +kernel
/-- The table of 2.8. -/
theorem test_lmFrame : last (run (.lmFrame [100#16, (-200#16), 300#16, (-400#16)]) State.reset) =
    some (.response 0#32 0x3C08EE3E#32) := by decide +kernel
theorem test_lmFrame_full : last (run (.lmFrame [0x8000#16, 0x8000#16]) State.reset) =
    some (.response 0#32 0x3F800000#32) := by decide +kernel
/-- P1 step 2. -/
theorem test_frame : (run (.frame 5#32 [0#16, 1000#16, (-1000#16), 32767#16, 0x8000#16]) running).out =
    [.level 0x3F21FB45#32, .played ⟨5#32, [0#16, 1000#16, (-1000#16), 32767#16, 0x8000#16]⟩] := by decide +kernel
/-- P2 step 3: ties away from zero. -/
theorem test_frame_volume :
    (run (.frame 6#32 [3#16, (-3#16), 1#16, (-1#16), 32767#16, 0x8000#16])
      { running with act := { running.act with volume := half } }).out =
    [.level 0x3F13CCA6#32, .played ⟨6#32, [2#16, (-2#16), 1#16, (-1#16), 16384#16, 0xC000#16]⟩] := by decide +kernel

/-- The machine that stands before the host's interface: fetching runs the word offered. -/
theorem test_withFetchWord :
    step (State.reset.withFetchWord 32 0x02000000) = .next { State.reset with out := [.response 0#32 0#32] } := by
  rw [next_after (o := step (State.reset.withFetchWord 32 0x02000000)) (by decide +kernel)]
  exact congrArg Host.Outcome.next (by decide +kernel)
theorem test_withFetchWord_frame :
    (after (step (State.reset.withFetchWord 48 0x03E800000001))).out =
      [.level 0x3CFA0000#32, .played ⟨1#32, [1000#16]⟩] := by decide +kernel

/-- R247: past a STOP that is offered, behind a BQ.BYP here, no second frame goes: the next step is the command's. -/
theorem test_stop_next :
    (after (step { running with ctrl := [0x10000000#32, 0x02000000#32], cap := [⟨1#32, [5#16]⟩], late := 1 })).out =
      [.response 0x81000000#32 0#32] := by decide +kernel
/-- R247: a frame gone past one STOP does not count for the STOP offered after it; gone past both, it does (log 30). -/
theorem test_stop_of_its_own :
    let s := { running with ctrl := [0x02000000#32, 0x01000001#32, 0x0000AC44#32, 0x02000000#32] }
    stopsOffered s.ctrl = 2 ∧ (after (step { s with late := 1 })).late = 0 ∧
      (after (step { s with late := 2 })).late = 1 ∧
      (after (step (after (step { s with late := 2 })))).late = 1 := by decide +kernel
/-- R8: each agent by itself, and those outside the block. -/
theorem test_agents :
    let s := (running.outside (.offerWords [0x10000000#32])).outside (.offerFrame ⟨1#32, [5#16]⟩)
    let t := after (s.workerStep none exec)
    let u := after (t.controlStep exec)
    t.out.length = 2 ∧ t.cap = [] ∧ t.ctrl = [0x10000000#32] ∧
      (u.outside .acceptFrame).out.length = 2 ∧ (u.outside .takeResponse).out = t.out := by decide +kernel

/-- R244: a frame that STOP leaves on CAP is held, or dropped by the collaborator, which drops none while Running. -/
theorem test_frame_held_or_dropped :
    let s := { running with ctrl := [0x02000000#32], cap := [⟨1#32, [5#16]⟩] }
    let t := after (s.controlStep exec)
    t.cap = s.cap ∧ (t.outside (.dropFrame 0)).cap = [] ∧ s.outside (.dropFrame 0) = s := by decide +kernel

/-! ## Names and records (R110, R113) -/

/-- T12 and V1: mixed case matches, a trailing space, an unknown name and an absent one give Normal. -/
theorem test_preset_name :
    Preset.ofName (some "ROBOT") = .robot ∧ Preset.ofName (some "rObOt") = .robot ∧
      Preset.ofName (some "alien ") = .normal ∧ Preset.ofName (some "") = .normal ∧
      Preset.ofName (some "chipmunk") = .normal ∧ Preset.ofName none = .normal := by decide +kernel
/-- R110: an empty record is the neutral one; a list is padded; six slots are an error. -/
theorem test_apply_form :
    let a : ApplyForm := ⟨[], none, none, none, none, none, none, none, none, none⟩
    a.expand = some neutral ∧
      ({ a with eq := [⟨1000#32, two⟩], voicePreset := some (.name "Deep") } : ApplyForm).expand =
        some { neutral with eq := neutral.eq.set 0 ⟨1000#32, two⟩, voicePreset := 4#32 } ∧
      ({ a with eq := List.replicate 6 ⟨0#32, two⟩ } : ApplyForm).expand = none := by decide +kernel

/-! ## Witnesses: for each obligation with hypotheses, a state and operands that meet them all -/

/-- `running` with a command and a frame offered. -/
def offered : State := { running with ctrl := [0x02000000#32], cap := [⟨1#32, [5#16]⟩] }

/-- Stopped with these words offered on CTRL. -/
def onCtrl (ws : List Word) : State := { State.reset with ctrl := ws }

/-- `running` with an APPLY pending. -/
def pending : State := run (.apply { neutral with pitchRatio := half, voicePreset := 5#32 }) running

theorem witness_DecodeOfEncodeIsIdentity :
    (Instr.bqPeak 255#8 ⟨0x7F7FFFFF#32⟩ ⟨0x80000001#32⟩ ⟨0x80000000#32⟩ 0xFFFFFFFF#32).wf = true ∧
      (Instr.apply neutral).wf = true ∧ (Instr.lmFrame []).wf = true ∧ (Instr.frame 1#32 [0xFFFF#16]).wf = true := by
  decide +kernel

theorem witness_DecodedWordsAreTheEncoding :
    decode [0x01000001#32, 1#32, 2#32] = .command (.start true 1#32) [2#32] := by decide

theorem witness_PayloadIsConsumedInFull :
    payloadWords 0x04 0 = none ∧ payloadWords 0x03 0 = some 18 ∧ payloadWords 0x60 65535 = some 65535 ∧
      payloadWords 0x60 0 = some 0 := by decide

theorem witness_UnassignedOpcodeIsAnsweredIllegal :
    (onCtrl [0x7F000000#32, 1#32]).ctrl = 0x7F000000#32 :: [1#32] ∧
      (onCtrl [0x7F000000#32, 1#32]).frameReady = false ∧
      payloadWords (opField 0x7F000000#32).toNat (immField 0x7F000000#32).toNat = none ∧
      payloadWords (opField 0x00000000#32).toNat (immField 0x00000000#32).toNat = none := by decide

/-- The three kinds of clause: a reserved field, the `B` word, an `S` word; each at its lowest bit. -/
theorem witness_ReservedFieldIsAnsweredIllegal :
    (∀ ws, (onCtrl ws).frameReady = false) ∧
      (payloadWords (opField 0x02000001#32).toNat (immField 0x02000001#32).toNat = some 0 ∧
        reservedBitSet 0x02000001#32 = true) ∧
      (payloadWords (opField 0x01000002#32).toNat (immField 0x01000002#32).toNat = some 1 ∧
        reservedBitSet 0x01000002#32 = true ∧ reservedBitSet 0x01000001#32 = false) ∧
      (payloadWords (opField 0x03000000#32).toNat (immField 0x03000000#32).toNat = some 18 ∧
        ((List.replicate 12 0#32 ++ [4#32] ++ List.replicate 5 0#32).getD 12 0#32).extractLsb' 2 30 ≠ 0#30) ∧
      (payloadWords (opField 0x60000001#32).toNat (immField 0x60000001#32).toNat = some 1 ∧
        ([0x00008000#32].getD 0 0#32 : Word) ≠ (([0x00008000#32].getD 0 0#32 : Word).extractLsb' 0 16).signExtend 32) :=
  ⟨fun _ => rfl, by decide, by decide, by decide, by decide⟩

theorem witness_NonFiniteWordIsAnsweredIllegal :
    (onCtrl [0x31010000#32, 0x7F800000#32]).frameReady = false ∧
      payloadWords (opField 0x31010000#32).toNat (immField 0x31010000#32).toNat = some 1 ∧
      0 ∈ finitePositions (opField 0x31010000#32).toNat ∧ nonFiniteWord 0x7F800000#32 = true ∧
      16 ∈ finitePositions (opField 0x03000000#32).toNat ∧ nonFiniteWord 0x7F7FFFFF#32 = false := by decide

theorem witness_StepRunsTheDecodedInstruction :
    ((onCtrl [0x02000000#32]).frameReady = false ∧ decode (onCtrl [0x02000000#32]).ctrl = .command .stop []) ∧
      (({ running with cap := [⟨1#32, [5#16]⟩] } : State).commandReady = false ∧ running.run = .running ∧
        (Frame.mk 1#32 [5#16]).wf = true) := by decide +kernel

/-- A command that is read, one that is answered ERR_ILLEGAL, a STOP with and without a frame gone past it, and
offers enough for the free number. -/
theorem witness_EitherAgentMayGoFirst :
    (offered.commandReady = true ∧ offered.run = .running ∧ offered.cap = ⟨1#32, [5#16]⟩ :: [] ∧
      (Frame.mk 1#32 [5#16]).wf = true) ∧
      decode [0x7F000000#32] = .illegal .unassignedOpcode [] ∧
      ({ offered with ctrl := [0x7F000000#32] } : State).commandReady = true ∧
      stopsOffered offered.ctrl = 1 ∧ stopsOffered [0x10000000#32] = 0 ∧
      offered.Inv ∧ offered.late = 0 ∧ ({ offered with late := 1 } : State).late ≠ 0 ∧
      (∃ n : Nat, Config.commandsFirst offered.pick ≤ ({ offered with ahead := n } : State).ahead) ∧
      ∃ offers : List (List Word), Config.commandsFirst offered.pick - offered.ahead < offers.length :=
  ⟨by decide +kernel, by decide, by decide +kernel, by decide +kernel, by decide, by decide +kernel, by decide +kernel,
    by decide, ⟨Config.commandsFirst offered.pick, Nat.le_refl _⟩,
    List.replicate (Config.commandsFirst offered.pick - offered.ahead + 1) [], by simp⟩

theorem witness_FramesWaitWhileNotRunning :
    let s : State := { State.reset with cap := [⟨1#32, [5#16]⟩] }
    s.run ≠ .running ∧ s.commandReady = false ∧ ∃ t, step { s with ctrl := [0x02000000#32] } = .next t :=
  ⟨by decide, by decide, _, next_after (by decide +kernel)⟩

/-- One command for each column of the table, and two that are not refused. -/
theorem witness_RefusalsFollowTheTable :
    refusalOf running (.bqProc 9#8 nan) = some .errIllegal ∧ refusalOf running (.bqProc 9#8 half) = some .errState ∧
      refusalOf State.reset (.bqProc 9#8 half) = some .errRange ∧
      refusalOf State.reset (.bqProc 8#8 half) = some .errUninit ∧
      refusalOf State.reset (.start false 0#32) = none ∧
      (∃ t, exec (.start false 0#32) State.reset = .next t ∧
        t.out = State.reset.out ++ [.response 0x01000000#32 0#32]) :=
  ⟨by decide +kernel, by decide +kernel, by decide +kernel, by decide +kernel, by decide, _,
    next_after (by decide +kernel), by decide +kernel⟩

theorem witness_RefusedCommandChangesNothing :
    ∃ t, exec (.ecProc half) State.reset = .next t ∧ t.out = State.reset.out ++ [.response 0x82000000#32 0#32] ∧
      0x80 ≤ ((0x82000000#32 : Word).extractLsb' 24 8).toNat :=
  ⟨_, next_after (by decide +kernel), by decide +kernel, by decide⟩

theorem witness_EveryCommandAnswersOnce :
    (∃ t, exec .stop running = .next t) ∧ ∃ t, exec (.frame 1#32 [5#16]) running = .next t :=
  ⟨⟨_, next_after (by decide +kernel)⟩, _, next_after (by decide +kernel)⟩

theorem witness_UnitOperationsNeedStopped :
    isUnitOperation (.bqByp 9#8) = true ∧ (Instr.bqByp 9#8).wf = true ∧ running.run ≠ .stopped := by decide +kernel

theorem witness_StartCreatesEveryUnit :
    State.reset.run = .stopped ∧ 0 < (1#32 : Word).toInt ∧ 0 < (0x7FFFFFFF#32 : Word).toInt := by decide

theorem witness_StartFailsWithoutEndpointOrRate :
    State.reset.run = .stopped ∧ (0#32 : Word).toInt ≤ 0 ∧ (0xFFFFFFFF#32 : Word).toInt ≤ 0 := by decide

theorem witness_ApplyPublishesTheClampedSnapshot :
    ({ neutral with pitchRatio := ⟨0xFF7FFFFF#32⟩, voicePreset := 6#32 } : DspParameters).wf = true := by decide

theorem witness_BypassIsStored :
    State.reset.run = .stopped ∧ (8#8).toNat < 9 ∧ half.isFinite = true ∧
      (NUM.mk 0x80000000#32).le NUM.zero = true ∧ (0#32 : Word).toInt ≤ 0 := by decide

theorem witness_PeakingDesignIsStored :
    State.reset.run = .stopped ∧ (8#8).toNat < 9 ∧ (NUM.mk 1#32).isFinite = true ∧
      (NUM.mk 1#32).le NUM.zero = false ∧ 0 < (1#32 : Word).toInt := by decide

theorem witness_ShelvingDesignsAreStored :
    State.reset.run = .stopped ∧ (0#8).toNat < 9 ∧ (NUM.mk 0x7F7FFFFF#32).isFinite = true ∧
      (NUM.mk 0x7F7FFFFF#32).le NUM.zero = false ∧ 0 < (0x7FFFFFFF#32 : Word).toInt := by decide

theorem witness_BiquadProcessesOneSample :
    let s : State := { State.reset with bq := State.reset.bq.set 0 vectorB1 }
    s.run = .stopped ∧ NUM.one.isFinite = true ∧ s.bq[(0#8).toNat].init = true := by decide

theorem witness_BypassIsTheIdentity :
    (rationals.Lawful ∧ ∀ x ∈ [(1 / 3 : ℚ), 0, -2], rationals.isFinite x = true) ∧
    (∀ x ∈ [NUM.one, ⟨0xFF7FFFFF#32⟩, ⟨1#32⟩, NUM.zero, ⟨0x80000000#32⟩], x.isFinite = true) ∧
      ∀ x ∈ [NUM.one, ⟨0xFF7FFFFF#32⟩, ⟨1#32⟩, NUM.zero], x.bits ≠ 0x80000000#32 :=
  ⟨⟨rationals_lawful, fun _ _ => rfl⟩, by decide⟩

/-- A frequency so low that the angular frequency rounds to zero: `sin` is 0 there, whatever it is elsewhere; and a
sequence whose products with a coefficient of −2 are finite. The cosine is the one that is 1 everywhere,
with which every `b1` is −2. -/
theorem witness_PeakingAtZeroGainIsTransparent :
    let cos : NUM → NUM := fun _ => NUM.one
    let f : NUM := ⟨1#32⟩
    let w := (((NUM.ofInt 2).mul NUM.pi).mul f).div (NUM.ofInt 2147483647)
    let two := NUM.ofInt 2
    let k := (two.mul NUM.one).mul ((w.sin.div two).mul two.sqrt)
    let peakRa0 := NUM.one.add (w.sin.div (two.mul NUM.one))
    let lowRa0 := (two.add (NUM.zero.mul (cos w))).add k
    let highRa0 := (two.sub (NUM.zero.mul (cos w))).add k
    f.isFinite = true ∧ NUM.one.isFinite = true ∧ f.le NUM.zero = false ∧ (0 : Int) < 2147483647 ∧
      (NUM.mk 0x80000000#32).isZero = true ∧ NUM.one.lt ⟨0x3DCCCCCD#32⟩ = false ∧
      peakRa0.isFinite = true ∧ peakRa0.isZero = false ∧ lowRa0.isFinite = true ∧ lowRa0.isZero = false ∧
      highRa0.isFinite = true ∧ highRa0.isZero = false ∧
      ∀ x ∈ [NUM.one, ⟨0x80000000#32⟩, ⟨0x7E800000#32⟩],
        x.isFinite = true ∧ ((NUM.ofInt (-2)).mul x).isFinite = true := by
  decide +kernel

theorem witness_PitchShifterIsCreated :
    State.reset.run = .stopped ∧ 0 < (1#32 : Word).toInt ∧ 0 < (0x7FFFFFFF#32 : Word).toInt := by decide

/-- Inside the dead-band at its upper edge, and just outside it. -/
theorem witness_PitchShifterProcessesOneSample :
    let s : State := { State.reset with ps := PitchShifter.created theParams 100 }
    s.run = .stopped ∧ half.isFinite = true ∧ two.isFinite = true ∧ s.ps.init = true ∧ s.ps.w < s.ps.size ∧
      s.ps.buf.wf NUM.zero s.ps.size = true ∧
      NUM.lt ⟨0x3CA3D70A#32⟩ ((ratio 102 100).sub NUM.one).abs = false ∧
      NUM.lt ⟨0x3CA3D70A#32⟩ ((ratio 103 100).sub NUM.one).abs = true := by decide +kernel

theorem witness_AnchorIsMinGapAway :
    2 ^ 24 ≤ 2 ^ 24 ∧ 2 ^ 24 - 1 < 2 ^ 24 ∧ 2 * 2 ^ 24 / 5 < 2 ^ 24 := by decide

theorem steps_of {o : Except Fault (PitchShifter × NUM)} (h : o.isOk = true) : ∃ p' y, o = .ok (p', y) := by
  cases o with
  | ok q => exact ⟨q.1, q.2, rfl⟩
  | error _ => cases h

/-- The smallest and the greatest sample rate, inside the dead-band and outside it, and a read cursor at the end of its
range. -/
theorem witness_PitchDistanceStaysInTheBand :
    let p : PitchShifter := { PitchShifter.created theParams 64 with r := ⟨0x42FFFFFF#32⟩ }
    let q := PitchShifter.created theParams 8388608
    p.size = 128 ∧ p.minGap = max 64 (2 * p.size / 5) ∧ p.cursorOk = true ∧
      q.size = 2 ^ 24 ∧ q.minGap = max 64 (2 * q.size / 5) ∧ q.cursorOk = true ∧
      (∃ p' y, p.process theParams NUM.one NUM.one = .ok (p', y)) ∧
      (∃ p' y, q.process theParams NUM.one two = .ok (p', y)) := by
  exact ⟨by decide +kernel, by decide +kernel, by decide +kernel, by decide +kernel, by decide +kernel,
    by decide +kernel, steps_of (by decide +kernel), steps_of (by decide +kernel)⟩

theorem witness_CombsAreCreated :
    State.reset.run = .stopped ∧ (2#8).toNat < 3 ∧ quarter.isFinite = true ∧ 0 < (1#32 : Word).toInt := by decide

theorem witness_CombProcessesOneSample :
    let s : State := { State.reset with cb := State.reset.cb.set 2 ⟨3, half, 2, [(0, NUM.one)], true⟩ }
    s.run = .stopped ∧ half.isFinite = true ∧ s.cb[(2#8).toNat].init = true ∧
      s.cb[(2#8).toNat].cur < s.cb[(2#8).toNat].len ∧ s.cb[(2#8).toNat].buf.wf NUM.zero s.cb[(2#8).toNat].len = true := by
  decide

theorem witness_FreshCombIsSilentForItsLength : 0 < 2 ∧ [NUM.one, half].length ≤ 2 := by decide

theorem witness_DryReverbIsTransparent :
    let s : State := { State.reset with cb := combsCreated theParams 100 }
    s.run = .stopped ∧ half.isFinite = true ∧ (∀ k : Fin 3, (s.cb.get k).init = true) ∧
      NUM.zero.le NUM.zero = true := by decide

theorem witness_WetReverbMixesTheMean :
    let s : State := { State.reset with cb := combsCreated theParams 100 }
    s.run = .stopped ∧ half.isFinite = true ∧ two.isFinite = true ∧
      (∀ k : Fin 3, (s.cb.get k).init = true ∧ (s.cb.get k).cur < (s.cb.get k).len ∧
        (s.cb.get k).buf.wf NUM.zero (s.cb.get k).len = true) ∧ two.le NUM.zero = false := by decide +kernel

theorem witness_EchoLineIsCreated : State.reset.run = .stopped ∧ 0 < (1#32 : Word).toInt := by decide

/-- Without growth at the greatest delay, with growth at the smallest. -/
theorem witness_EchoLineIsConfigured :
    let s : State := { State.reset with ec := Echo.created Num.binary32 4 }
    s.run = .stopped ∧ half.isFinite = true ∧ two.isFinite = true ∧ s.ec.init = true ∧
      ¬ s.ec.len ≤ (max (3#32 : Word).toInt 0).toNat ∧ s.ec.len ≤ (max (4#32 : Word).toInt 0).toNat := by decide

theorem witness_EchoDelayStaysBelowLength :
    let s : State := { State.reset with ec := Echo.created Num.binary32 4 }
    (∃ t, exec (.ecCfg 0x7FFFFFFF#32 two two) s = .next t) ∧ two.isFinite = true ∧ s.run = .stopped ∧
      s.ec.init = true :=
  ⟨⟨_, next_after (by decide +kernel)⟩, by decide, by decide, by decide⟩

theorem witness_EchoProcessesOneSample :
    let s : State := { State.reset with ec := ⟨4, 3, 3, half, half, [(0, NUM.one)], true⟩ }
    let ec : Echo ℚ := ⟨4, 3, 3, 0, 1 / 2, [(0, 1)], true⟩
    (s.run = .stopped ∧ half.isFinite = true ∧ s.ec.init = true ∧ s.ec.cur < s.ec.len ∧
      s.ec.buf.wf NUM.zero s.ec.len = true) ∧
      rationals.Lawful ∧ ec.cur < ec.len ∧ rationals.isZero ec.mix = true ∧ rationals.isFinite (1 / 3) = true ∧
      ∀ i, rationals.isFinite (ec.buf.read rationals.zero i) = true :=
  ⟨by decide, rationals_lawful, by decide, rationals_isZero.2 rfl, rfl, fun _ => rfl⟩

theorem witness_PresetRowIsLoaded : State.reset.run = .stopped := by decide

theorem witness_VoiceModulatorIsCreated : State.reset.run = .stopped ∧ 0 < (1#32 : Word).toInt := by decide

theorem witness_VoiceModulatorProcessesOneSample :
    let s : State := { State.reset with
      vm := VoiceModulator.created Num.binary32 20, pc := PresetConfig.loaded theParams .alien }
    s.run = .stopped ∧ half.isFinite = true ∧ s.vm.init = true ∧ s.pc.init = true := by decide

theorem witness_LevelIsAnswered : State.reset.run = .stopped ∧ ([0x8000#16] : List Half) ≠ [] := by decide

theorem witness_LevelIsBoundedAndSymmetric :
    (([0x8000#16] : List Half) ≠ [] ∧ ([0x8000#16] : List Half).length < 2 ^ 31 ∧
      (∀ h ∈ ([0#16, 0#16] : List Half), h = 0#16) ∧ ([1#16, 2#16] : List Half).Perm [2#16, 1#16]) ∧
      (Params.over rationals (1 / 2)).Lawful ∧
      (Params.over rationals (1 / 2)).fullScale = (Params.over rationals (1 / 2)).ofInt 32768 ∧ (0 : Int) < 2 :=
  ⟨⟨by simp, by simp, by simp, List.Perm.swap _ _ _⟩, rationals_lawful, rfl, by decide⟩

/-- Both clauses: nothing pending, and an APPLY pending. -/
theorem witness_FailedReadOnlyLatches :
    (0#32 : Word).toInt ≤ 0 ∧ (0xFFFFFFFF#32 : Word).toInt ≤ 0 ∧ running.run = .running ∧ running.pend = false ∧
      pending.run = .running ∧ pending.pend = true := by decide +kernel

theorem witness_OneSampleGoesThroughTheStages :
    running.Inv ∧ running.run = .running ∧ running.pend = false := by decide +kernel

theorem witness_FrameCompletesAndItsFrame :
    running.Inv ∧ running.run = .running ∧ 0 < (1#32 : Word).toInt ∧ ([5#16] : List Half).length = (1#32 : Word).toInt.toNat ∧
      running.pend = false ∧ running.act.wet.le NUM.zero = true := by decide +kernel

theorem witness_ApplyReachesTheNextFrame :
    neutral.wf = true ∧ running.run = .running ∧ ∃ s1 t, exec (.apply neutral) running = .next s1 ∧
      exec (.frame 1#32 [5#16]) s1 = .next t :=
  ⟨by decide, by decide +kernel, _, _, next_after (by decide +kernel), next_after (by decide +kernel)⟩

theorem witness_FramesMayBeCutAnywhere :
    running.run = .running ∧ 0 < (2#32 : Word).toInt ∧ 0 < (1#32 : Word).toInt ∧
      ∃ s1 s2 t, exec (.frame 2#32 ([5#16] ++ [0x8000#16])) running = .next t ∧
        exec (.frame 1#32 [5#16]) running = .next s1 ∧ exec (.frame 1#32 [0x8000#16]) s1 = .next s2 :=
  ⟨by decide +kernel, by decide, by decide, _, _, _, next_after (by decide +kernel), next_after (by decide +kernel),
    next_after (by decide +kernel)⟩

theorem witness_NeutralStreamIsPassthrough :
    NeutralStream running ∧ 0 < (1#32 : Word).toInt ∧ ([5#16] : List Half).length = (1#32 : Word).toInt.toNat :=
  ⟨{ inv := by decide +kernel
     running := by decide +kernel
     latched := by decide +kernel
     act := by decide +kernel
     filters := by decide +kernel
     preset := by decide +kernel
     echo := by decide +kernel
     finite := by
      have h : running.ec.buf = [] := by decide +kernel
      rw [h]
      intro i
      rw [Memory.read]
      decide }, by decide, by decide⟩

theorem witness_StartFromNeutralIsNeutral :
    let s : State := run (.bqByp 0#8) State.reset
    s.Inv ∧ s.run = .stopped ∧ s.snap = Snapshot.neutral Num.binary32 ∧ 0 < (100#32 : Word).toInt ∧
      ∃ t, exec (.start true 100#32) s = .next t :=
  ⟨by decide +kernel, by decide +kernel, by decide +kernel, by decide, _, next_after (by decide +kernel)⟩

theorem witness_CarrierLawsHold :
    (NUM.mk 0x80000000#32).isFinite = true ∧ (NUM.mk 0x7F7FFFFF#32).isFinite = true ∧
      (NUM.mk 0x7F7FFFFF#32).isZero = false := by decide

theorem witness_OutputConversionIsFaithful :
    nan.isNaN = true ∧ (Params.over rationals (1 / 2)).Lawful ∧
      (Params.over rationals (1 / 2)).pcmScale = (Params.over rationals (1 / 2)).ofInt 32768 :=
  ⟨by decide, rationals_lawful, rfl⟩

theorem witness_EveryStepKeepsTheInvariant :
    offered.Inv ∧ (∃ t, step { State.reset with ctrl := [0x01000001#32, 100#32] } = .next t) ∧
      (∃ t, offered.controlStep exec = .next t) ∧ ∃ t, offered.workerStep none exec = .next t :=
  ⟨by decide +kernel, ⟨_, next_after (by decide +kernel)⟩, ⟨_, next_after (by decide +kernel)⟩, _,
    next_after (by decide +kernel)⟩

theorem witness_GoodStatesNeverFault : pending.Inv := by decide +kernel

theorem witness_OnlyStartAndStopChangeTheRunState :
    (∃ t, execWith theParams (.start true 1#32) State.reset = .next t ∧ t.run ≠ State.reset.run) ∧
      ∃ t, execWith theParams .stop running = .next t ∧ t.run ≠ running.run :=
  ⟨⟨_, next_after (by decide +kernel), by decide +kernel⟩, _, next_after (by decide +kernel), by decide +kernel⟩

theorem witness_OnlyApplyWritesTheSnapshot :
    ∃ t, execWith theParams (.apply { neutral with formantShift := 3#32 }) State.reset = .next t ∧ t.snap ≠ State.reset.snap ∧
      State.reset.pend = false ∧ t.pend = true :=
  ⟨_, next_after (by decide +kernel), by decide +kernel, by decide, by decide +kernel⟩

theorem witness_CommandsLeaveTheWorkersStateAlone :
    running.run = .running ∧ isCommand (.apply neutral) = true ∧ Instr.apply neutral ≠ .stop ∧
      ∃ t, execWith theParams (.apply neutral) running = .next t :=
  ⟨by decide +kernel, by decide, by decide, _, next_after (by decide +kernel)⟩

/-- Two states that differ in what an uninitialised unit holds, and one that is Running. -/
theorem witness_UninitialisedContentsAreNeverObserved :
    State.reset.visible = { State.reset with sr := 7, ec := ⟨4, 9, 9, half, two, [(1, NUM.one)], false⟩ }.visible ∧
      (running.run = .running → running.allInit = true) := by decide +kernel

end Sys2Proof.Tests
end

section
/-! PROOFS. The default carrier as rationals: the value of a finite datum, and each operation exact wherever its
exact result is the value of a datum. -/

namespace Sys2Proof.NUM

/-! ## The fields of a datum -/

theorem magnitude_eq (x : NUM) : x.magnitude = x.bits.toNat % 2 ^ 31 := by
  simp [magnitude]

theorem expField_eq (x : NUM) : x.expField = x.magnitude / 2 ^ 23 := by
  simp only [expField, magnitude_eq, BitVec.extractLsb'_toNat, Nat.shiftRight_eq_div_pow]
  omega

theorem fracField_eq (x : NUM) : x.fracField = x.magnitude % 2 ^ 23 := by
  simp only [fracField, magnitude_eq, BitVec.extractLsb'_toNat, Nat.shiftRight_eq_div_pow]
  omega

theorem isFinite_iff (x : NUM) : x.isFinite = true ↔ x.magnitude < infMagnitude := by
  have hfield : x.isFinite = true ↔ x.expField ≠ 0xFF := by
    simp [isFinite, expField, ← BitVec.toNat_inj]
  have := magnitude_eq x
  rw [hfield, expField_eq, infMagnitude]
  omega

theorem isNaN_of_finite {x : NUM} (hx : x.isFinite = true) : x.isNaN = false := by
  have := (isFinite_iff x).1 hx
  simp only [isNaN, decide_eq_false_iff_not]
  omega

theorem isInf_of_finite {x : NUM} (hx : x.isFinite = true) : x.isInf = false := by
  have := (isFinite_iff x).1 hx
  simp only [isInf, beq_eq_false_iff_ne]
  omega

theorem isZero_iff (x : NUM) : x.isZero = true ↔ x.magnitude = 0 := by simp [isZero]

theorem finite_of_isZero {x : NUM} (hx : x.isZero = true) : x.isFinite = true := by
  rw [isFinite_iff, (isZero_iff x).1 hx]
  decide

/-- A datum is its sign and its magnitude. -/
theorem ext_sign_magnitude {x y : NUM} (hs : x.sign = y.sign) (hm : x.magnitude = y.magnitude) : x = y := by
  obtain ⟨x⟩ := x
  obtain ⟨y⟩ := y
  rw [magnitude_eq, magnitude_eq] at hm
  simp only [sign, BitVec.msb_eq_decide, decide_eq_decide] at hs
  congr 1
  apply BitVec.eq_of_toNat_eq
  simp only at hm
  omega

@[simp] theorem sign_ofMagnitude (s : Bool) (mag : Nat) : (ofMagnitude s mag).sign = s := by
  have happ : (ofMagnitude s mag).sign = (BitVec.ofBool s).msb := BitVec.msb_append
  cases s <;> exact happ

theorem magnitude_ofMagnitude (s : Bool) {mag : Nat} (h : mag < 2 ^ 31) : (ofMagnitude s mag).magnitude = mag := by
  have happ : (ofMagnitude s mag).bits.toNat = s.toNat * 2 ^ 31 + mag := by
    rw [ofMagnitude, BitVec.toNat_append, BitVec.toNat_ofNat, Nat.mod_eq_of_lt h, ← Nat.shiftLeft_add_eq_or_of_lt h,
      Nat.shiftLeft_eq, BitVec.toNat_ofBool]
  rw [magnitude_eq, happ]
  omega

@[simp] theorem ofMagnitude_sign_magnitude (x : NUM) : ofMagnitude x.sign x.magnitude = x := by
  have := magnitude_eq x
  exact ext_sign_magnitude (sign_ofMagnitude ..) (magnitude_ofMagnitude _ (by omega))

theorem eq_signedZero {x : NUM} (hx : x.isZero = true) : x = signedZero x.sign := by
  rw [signedZero, ← (isZero_iff x).1 hx, ofMagnitude_sign_magnitude]

@[simp] theorem isZero_signedZero (s : Bool) : (signedZero s).isZero = true := by
  rw [isZero_iff, signedZero, magnitude_ofMagnitude s (by decide)]

@[simp] theorem sign_neg (x : NUM) : x.neg.sign = !x.sign := by
  have hxor : x.neg.sign = (x.sign ^^ true) := BitVec.msb_xor
  simp [hxor]

@[simp] theorem magnitude_neg (x : NUM) : x.neg.magnitude = x.magnitude := by
  unfold magnitude neg
  congr 1
  ext i hi
  have hbit : (0x80000000#32).getLsbD i = false := by
    rw [show 0x80000000#32 = BitVec.twoPow 32 31 from rfl, BitVec.getLsbD_twoPow]
    simp
    omega
  simp only [BitVec.getElem_extractLsb', BitVec.getLsbD_xor, Nat.zero_add, hbit, Bool.xor_false]

@[simp] theorem isFinite_neg (x : NUM) : x.neg.isFinite = x.isFinite := by
  rw [Bool.eq_iff_iff, isFinite_iff, isFinite_iff, magnitude_neg]

/-! ## Significand and exponent -/

theorem significand_lt (x : NUM) : x.significand < 2 ^ 24 := by
  have := fracField_eq x
  unfold significand
  split <;> omega

theorem le_exponent (x : NUM) : -149 ≤ x.exponent := by
  unfold exponent
  split <;> omega

/-- Above the least exponent a significand has all its 24 bits. -/
theorem exponent_eq_or_le_significand (x : NUM) : x.exponent = -149 ∨ 2 ^ 23 ≤ x.significand := by
  unfold exponent significand
  split <;> omega

/-- The exponent counts the steps of `2^23` in the magnitude. -/
theorem magnitude_eq_exponent_significand (x : NUM) :
    (x.magnitude : Int) = (x.exponent + 149) * 2 ^ 23 + x.significand := by
  have := expField_eq x
  have := fracField_eq x
  unfold exponent significand
  split <;> omega

theorem significand_eq_zero (x : NUM) : x.significand = 0 ↔ x.magnitude = 0 := by
  have := magnitude_eq_exponent_significand x
  have := exponent_eq_or_le_significand x
  have := le_exponent x
  omega

/-- The magnitude determines significand and exponent, and every canonical pair is reached. -/
theorem significand_exponent_of_magnitude {x : NUM} {m : Nat} {e : Int} (hm : m < 2 ^ 24) (he : -149 ≤ e)
    (hcanon : e = -149 ∨ 2 ^ 23 ≤ m) (hx : (x.magnitude : Int) = (e + 149) * 2 ^ 23 + m) :
    x.significand = m ∧ x.exponent = e := by
  have := magnitude_eq_exponent_significand x
  have := exponent_eq_or_le_significand x
  have := le_exponent x
  have := significand_lt x
  omega

/-! ## The value of a finite datum -/

/-- The value of a finite datum without its sign. -/
def absValue (x : NUM) : ℚ := x.significand * 2 ^ x.exponent

/-- The value of a finite datum. -/
def value (x : NUM) : ℚ := if x.sign then -x.absValue else x.absValue

theorem absValue_nonneg (x : NUM) : 0 ≤ x.absValue := by
  unfold absValue
  positivity

@[simp] theorem abs_value (x : NUM) : |x.value| = x.absValue := by
  unfold value
  split
  · rw [abs_neg, abs_of_nonneg x.absValue_nonneg]
  · rw [abs_of_nonneg x.absValue_nonneg]

theorem absValue_eq_zero (x : NUM) : x.absValue = 0 ↔ x.magnitude = 0 := by
  have hpow : (2 : ℚ) ^ x.exponent ≠ 0 := by positivity
  simp [absValue, hpow, significand_eq_zero]

theorem value_eq_zero (x : NUM) : x.value = 0 ↔ x.isZero = true := by
  rw [← abs_eq_zero, abs_value, absValue_eq_zero, isZero_iff]

theorem value_of_isZero {x : NUM} (hx : x.isZero = true) : x.value = 0 := (value_eq_zero x).2 hx

theorem absValue_congr {x y : NUM} (h : x.magnitude = y.magnitude) : x.absValue = y.absValue := by
  have hy := magnitude_eq_exponent_significand y
  obtain ⟨hs, he⟩ := significand_exponent_of_magnitude y.significand_lt y.le_exponent
    y.exponent_eq_or_le_significand (h ▸ hy)
  rw [absValue, absValue, hs, he]

@[simp] theorem value_neg (x : NUM) : x.neg.value = -x.value := by
  unfold value
  rw [absValue_congr (magnitude_neg x), sign_neg]
  cases x.sign <;> simp

theorem absValue_lt_of_magnitude_lt {x y : NUM} (h : x.magnitude < y.magnitude) : x.absValue < y.absValue := by
  have hx := magnitude_eq_exponent_significand x
  have hy := magnitude_eq_exponent_significand y
  have hsx := significand_lt x
  have hcx := exponent_eq_or_le_significand x
  have hcy := exponent_eq_or_le_significand y
  have := le_exponent x
  have := le_exponent y
  have := significand_lt y
  unfold absValue
  rcases (by omega : x.exponent < y.exponent ∨ x.exponent = y.exponent ∧ x.significand < y.significand) with
    hlt | ⟨heq, hlt⟩
  · have hnormal : (2 : ℚ) ^ 23 ≤ y.significand := by exact_mod_cast (by omega : 2 ^ 23 ≤ y.significand)
    calc (x.significand : ℚ) * 2 ^ x.exponent
        < 2 ^ 24 * 2 ^ x.exponent := by gcongr; exact_mod_cast hsx
      _ = 2 ^ 23 * 2 ^ (x.exponent + 1) := by rw [zpow_add_one₀ (by norm_num)]; ring
      _ ≤ 2 ^ 23 * 2 ^ y.exponent := by gcongr <;> [norm_num; omega]
      _ ≤ y.significand * 2 ^ y.exponent := by gcongr
  · rw [heq]
    gcongr

theorem absValue_lt_iff (x y : NUM) : x.absValue < y.absValue ↔ x.magnitude < y.magnitude := by
  refine ⟨fun h => ?_, absValue_lt_of_magnitude_lt⟩
  by_contra hle
  rcases Nat.lt_or_eq_of_le (Nat.le_of_not_lt hle) with hlt | heq
  · exact lt_asymm h (absValue_lt_of_magnitude_lt hlt)
  · exact h.ne (absValue_congr heq.symm)

/-- A finite datum that is no zero has the sign of its value. -/
theorem sign_eq_of_value_ne_zero {x : NUM} (h : x.value ≠ 0) : x.sign = decide (x.value < 0) := by
  have hpos : 0 < x.absValue := by rw [← abs_value]; exact abs_pos.2 h
  unfold value
  cases x.sign <;> simp [hpos, hpos.le]

/-! ## Comparison -/

theorem order_lt_order (x y : NUM) : x.order < y.order ↔ x.value < y.value := by
  have hlt := absValue_lt_iff x y
  have hgt := absValue_lt_iff y x
  have hx := absValue_nonneg x
  have hy := absValue_nonneg y
  have hx0 := absValue_eq_zero x
  have hy0 := absValue_eq_zero y
  unfold order value
  cases x.sign <;> cases y.sign
  case false.false => simp [hlt]
  case false.true => exact iff_of_false (by simp) (by simp; linarith)
  case true.false =>
    have hpos : -x.absValue < y.absValue ↔ ¬(x.absValue = 0 ∧ y.absValue = 0) := by
      refine ⟨fun h ⟨hx', hy'⟩ => by linarith, fun h => ?_⟩
      by_contra hle
      exact h ⟨by linarith, by linarith⟩
    simp [hpos, hx0, hy0]
    omega
  case true.true => simp [hgt]

theorem lt_eq_decide {x y : NUM} (hx : x.isFinite = true) (hy : y.isFinite = true) :
    x.lt y = decide (x.value < y.value) := by
  simp [lt, isNaN_of_finite hx, isNaN_of_finite hy, order_lt_order]

theorem le_eq_decide {x y : NUM} (hx : x.isFinite = true) (hy : y.isFinite = true) :
    x.le y = decide (x.value ≤ y.value) := by
  simp [le, isNaN_of_finite hx, isNaN_of_finite hy, ← not_lt, order_lt_order]

/-! ## Rounding an exact result -/

/-- Shifting back a number that was shifted loses nothing. -/
theorem shiftRound_mul_two_pow (m k : Nat) : shiftRound (m * 2 ^ k) k false = m := by
  have hpos : 0 < 2 ^ k := by positivity
  have hrem : m * 2 ^ k % 2 ^ k = 0 := Nat.mul_mod_left ..
  have hquot : m * 2 ^ k / 2 ^ k = m := Nat.mul_div_cancel _ hpos
  simp [shiftRound, hrem, hquot, hpos.ne]

/-- Two ways to write one value with powers of two: the greater exponent has the smaller factor. -/
theorem mul_two_pow_toNat_eq {m n : Nat} {e t : Int} (h : (m : ℚ) * 2 ^ e = n * 2 ^ t) (hle : t ≤ e) :
    m * 2 ^ (e - t).toNat = n := by
  obtain ⟨k, rfl⟩ := Int.le.dest hle
  have hpow : (2 : ℚ) ^ t ≠ 0 := by positivity
  rw [zpow_add₀ (by norm_num), zpow_natCast] at h
  have hcancel : (m : ℚ) * 2 ^ k = n := mul_right_cancel₀ hpow (by rw [← h]; ring)
  rw [add_sub_cancel_left, Int.toNat_natCast]
  exact_mod_cast hcancel

/-- The exponent that rounding takes for the value of a datum is the exponent of that datum. -/
theorem roundPack_exponent {x : NUM} {m : Nat} {e : Int} (hm : m ≠ 0) (h : (m : ℚ) * 2 ^ e = x.absValue) :
    max (e + Nat.log2 m - 23) (-149) = x.exponent := by
  have hlo : ((2 ^ m.log2 : Nat) : ℚ) ≤ m := by exact_mod_cast Nat.log2_self_le hm
  have hhi : (m : ℚ) < (2 ^ (m.log2 + 1) : Nat) := by exact_mod_cast Nat.lt_log2_self
  have hbelow : (2 : ℚ) ^ (e + m.log2) < 2 ^ (x.exponent + 24) :=
    calc (2 : ℚ) ^ (e + m.log2) = (2 ^ m.log2 : Nat) * 2 ^ e := by
          rw [zpow_add₀ (by norm_num)]; push_cast; rw [zpow_natCast]; ring
      _ ≤ m * 2 ^ e := by gcongr
      _ = x.significand * 2 ^ x.exponent := h
      _ < 2 ^ 24 * 2 ^ x.exponent := by gcongr; exact_mod_cast x.significand_lt
      _ = 2 ^ (x.exponent + 24) := by rw [zpow_add₀ (by norm_num)]; norm_num [mul_comm]
  have hlt : e + m.log2 < x.exponent + 24 := (zpow_lt_zpow_iff_right₀ (by norm_num)).1 hbelow
  have := x.le_exponent
  rcases x.exponent_eq_or_le_significand with hsub | hnormal
  · omega
  · have habove : (2 : ℚ) ^ (x.exponent + 23) < 2 ^ (e + m.log2 + 1) :=
      calc (2 : ℚ) ^ (x.exponent + 23) = (2 ^ 23 : Nat) * 2 ^ x.exponent := by
            rw [zpow_add₀ (by norm_num)]; norm_num [mul_comm]
        _ ≤ x.significand * 2 ^ x.exponent := by gcongr
        _ = m * 2 ^ e := h.symm
        _ < (2 ^ (m.log2 + 1) : Nat) * 2 ^ e := by gcongr
        _ = 2 ^ (e + m.log2 + 1) := by
            rw [add_assoc, zpow_add₀ (by norm_num)]; push_cast; rw [← zpow_natCast]; push_cast; ring
    have hgt : x.exponent + 23 < e + m.log2 + 1 := (zpow_lt_zpow_iff_right₀ (by norm_num)).1 habove
    omega

/-- Rounding the value of a finite datum gives that datum. -/
theorem roundPack_exact {x : NUM} (hx : x.isFinite = true) {m : Nat} {e : Int} (h : (m : ℚ) * 2 ^ e = x.absValue)
    (s : Bool) : roundPack s m e false = ofMagnitude s x.magnitude := by
  by_cases hm : m = 0
  · have hzero : x.magnitude = 0 := by rw [← absValue_eq_zero, ← h]; simp [hm]
    simp [roundPack, hm, hzero, signedZero]
  · have hmant : (if x.exponent ≤ e then m * 2 ^ (e - x.exponent).toNat
        else shiftRound m (x.exponent - e).toNat false) = x.significand := by
      split
      case isTrue hle => exact mul_two_pow_toNat_eq h hle
      case isFalse hgt => rw [← mul_two_pow_toNat_eq h.symm (by omega), shiftRound_mul_two_pow]
    have hmag := magnitude_eq_exponent_significand x
    have hpacked : (x.exponent + 149).toNat * 2 ^ 23 + x.significand = x.magnitude := by
      have := x.le_exponent
      omega
    have hinf : ¬ infMagnitude ≤ x.magnitude := not_le.2 ((isFinite_iff x).1 hx)
    simp only [roundPack, hm, roundPack_exponent hm h, hmant, hpacked, hinf, if_false]

/-- Every canonical significand and exponent below those of an infinity belong to a finite datum of either sign. -/
theorem exists_of_canonical (s : Bool) {m : Nat} {e : Int} (hm : m < 2 ^ 24) (he : -149 ≤ e) (hhi : e ≤ 104)
    (hcanon : e = -149 ∨ 2 ^ 23 ≤ m) :
    ∃ x : NUM, x.isFinite = true ∧ x.sign = s ∧ x.absValue = m * 2 ^ e := by
  have hbound : (e + 149).toNat * 2 ^ 23 + m < infMagnitude := by
    unfold infMagnitude
    omega
  have hmag := magnitude_ofMagnitude s (hbound.trans (by decide))
  obtain ⟨hsig, hexp⟩ := significand_exponent_of_magnitude hm he hcanon (x := ofMagnitude s _) (by rw [hmag]; omega)
  exact ⟨_, (isFinite_iff _).2 (hmag ▸ hbound), sign_ofMagnitude s _, by rw [absValue, hsig, hexp]⟩

/-- A number of at most 24 bits, shifted up as far as the least exponent lets it, is a canonical significand. -/
theorem exists_canonical_shift {m : Nat} (hm : m < 2 ^ 24) (hm0 : m ≠ 0) {e : Int} (he : -149 ≤ e) :
    ∃ k : Nat, m * 2 ^ k < 2 ^ 24 ∧ -149 ≤ e - k ∧ (e - k = -149 ∨ 2 ^ 23 ≤ m * 2 ^ k) := by
  have hlog : m.log2 < 24 := (Nat.log2_lt hm0).2 hm
  have hhi (k : Nat) : m * 2 ^ k < 2 ^ (m.log2 + 1 + k) := by
    rw [pow_add]
    gcongr
    exact Nat.lt_log2_self
  have hlo (k : Nat) : 2 ^ (m.log2 + k) ≤ m * 2 ^ k := by
    rw [pow_add]
    gcongr
    exact Nat.log2_self_le hm0
  rcases le_total (-149) (e - (23 - m.log2 : Nat)) with hnormal | hsub
  · refine ⟨23 - m.log2, (hhi _).trans_le (Nat.pow_le_pow_right two_pos (by omega)), hnormal, .inr ?_⟩
    exact (Nat.pow_le_pow_right two_pos (by omega)).trans (hlo _)
  · refine ⟨(e + 149).toNat, (hhi _).trans_le (Nat.pow_le_pow_right two_pos (by omega)), by omega, .inl (by omega)⟩

/-- Every number of 24 bits at an exponent in range is the value of a finite datum. -/
theorem exists_absValue_eq (s : Bool) {m : Nat} (hm : m < 2 ^ 24) {e : Int} (he : -149 ≤ e) (hhi : e ≤ 104) :
    ∃ x : NUM, x.isFinite = true ∧ x.sign = s ∧ x.absValue = m * 2 ^ e := by
  by_cases hm0 : m = 0
  · have hz := isZero_signedZero s
    exact ⟨signedZero s, finite_of_isZero hz, sign_ofMagnitude s 0,
      by rw [hm0, (absValue_eq_zero _).2 ((isZero_iff _).1 hz)]; simp⟩
  · obtain ⟨k, hlt, hlo, hcanon⟩ := exists_canonical_shift hm hm0 he
    obtain ⟨x, hx, hs, hv⟩ := exists_of_canonical s hlt hlo (by omega) hcanon
    refine ⟨x, hx, hs, hv.trans ?_⟩
    rw [zpow_sub₀ (by norm_num), zpow_natCast]
    push_cast
    field_simp

/-! ## Operations with an exact result -/

/-- The significand at a lower exponent, read back. -/
theorem scaled_mul_two_zpow (x : NUM) {e : Int} (he : e ≤ x.exponent) : (x.scaled e : ℚ) * 2 ^ e = x.value := by
  obtain ⟨k, hk⟩ := Int.le.dest he
  have habs : (x.significand * 2 ^ k : ℚ) * 2 ^ e = x.absValue := by
    rw [absValue, ← hk, zpow_add₀ (by norm_num), zpow_natCast]
    ring
  have hk' : (x.exponent - e).toNat = k := by omega
  unfold scaled value
  rw [hk']
  split <;> simp [habs]

/-- A sum is exact where its value is that of a datum; the sign of a zero is that of two zeros, or positive. -/
theorem add_exact {a b c : NUM} (ha : a.isFinite = true) (hb : b.isFinite = true) (hc : c.isFinite = true)
    (hv : c.value = a.value + b.value) (hs : c.value = 0 → c.sign = (a.sign && b.sign)) : a.add b = c := by
  have hsum (e : Int) (hea : e ≤ a.exponent) (heb : e ≤ b.exponent) :
      ((a.scaled e + b.scaled e : Int) : ℚ) * 2 ^ e = c.value := by
    rw [Int.cast_add, add_mul, scaled_mul_two_zpow a hea, scaled_mul_two_zpow b heb, hv]
  simp only [add, isNaN_of_finite ha, isNaN_of_finite hb, isInf_of_finite ha, isInf_of_finite hb, Bool.or_self,
    Bool.false_eq_true, if_false]
  generalize he : min a.exponent b.exponent = e
  specialize hsum e (by omega) (by omega)
  generalize a.scaled e + b.scaled e = sum at hsum
  have hpow : (0 : ℚ) < 2 ^ e := by positivity
  split
  case isTrue h0 =>
    have hc0 : c.value = 0 := by rw [← hsum, h0]; simp
    rw [← hs hc0, ← eq_signedZero ((value_eq_zero c).1 hc0)]
  case isFalse h0 =>
    have hc0 : c.value ≠ 0 := by rw [← hsum]; exact mul_ne_zero (by exact_mod_cast h0) hpow.ne'
    have hsign : c.sign = decide (sum < 0) := by
      rw [sign_eq_of_value_ne_zero hc0, ← hsum, decide_eq_decide, mul_neg_iff]
      simp [hpow, hpow.not_gt]
    have habs : (sum.natAbs : ℚ) * 2 ^ e = c.absValue := by
      rw [← abs_value, ← hsum, abs_mul, abs_of_pos hpow, Nat.cast_natAbs, Int.cast_abs]
    rw [roundPack_exact hc habs, ← hsign, ofMagnitude_sign_magnitude]

/-- A product is exact where its value is that of a datum. -/
theorem mul_exact {a b c : NUM} (ha : a.isFinite = true) (hb : b.isFinite = true) (hc : c.isFinite = true)
    (hv : c.absValue = a.absValue * b.absValue) (hs : c.sign = (a.sign != b.sign)) : a.mul b = c := by
  have habs : ((a.significand * b.significand : Nat) : ℚ) * 2 ^ (a.exponent + b.exponent) = c.absValue := by
    rw [hv, absValue, absValue, zpow_add₀ (by norm_num)]
    push_cast
    ring
  simp only [mul, isNaN_of_finite ha, isNaN_of_finite hb, isInf_of_finite ha, isInf_of_finite hb, Bool.or_self,
    Bool.false_eq_true, if_false]
  rw [roundPack_exact hc habs, ← hs, ofMagnitude_sign_magnitude]

/-- Where a quotient is the value of a datum, the division of the significands that forms it leaves no rest. -/
theorem significand_dvd_of_quotient {a b c : NUM} (hv : c.absValue * b.absValue = a.absValue) :
    b.significand ∣ a.significand * 2 ^ 50 := by
  have hprod : ((c.significand * b.significand : Nat) : ℚ) * 2 ^ (c.exponent + b.exponent) =
      a.significand * 2 ^ a.exponent := by
    rw [← absValue, ← hv, absValue, absValue, zpow_add₀ (by norm_num)]
    push_cast
    ring
  rcases le_total a.exponent (c.exponent + b.exponent) with hle | hle
  · rw [← mul_two_pow_toNat_eq hprod hle, mul_assoc, mul_assoc]
    exact (Dvd.intro _ rfl).mul_left _
  · have hscaled := mul_two_pow_toNat_eq hprod.symm hle
    generalize (a.exponent - (c.exponent + b.exponent)).toNat = k at hscaled
    have hsmall : c.significand * b.significand < 2 ^ 24 * 2 ^ 24 :=
      Nat.mul_lt_mul'' c.significand_lt b.significand_lt
    rcases Nat.lt_or_ge 50 k with hk | hk
    · have hzero : a.significand = 0 := by
        by_contra hpos
        have : 2 ^ 51 ≤ a.significand * 2 ^ k :=
          (Nat.pow_le_pow_right two_pos hk).trans (Nat.le_mul_of_pos_left _ (Nat.pos_of_ne_zero hpos))
        omega
      rw [hzero, Nat.zero_mul]
      exact dvd_zero _
    · obtain ⟨j, hj⟩ := Nat.exists_eq_add_of_le hk
      rw [hj, pow_add, ← mul_assoc, hscaled, mul_assoc]
      exact (Dvd.intro _ rfl).mul_left _

/-- A quotient is exact where its value is that of a datum. -/
theorem div_exact {a b c : NUM} (ha : a.isFinite = true) (hb : b.isFinite = true) (hc : c.isFinite = true)
    (hb0 : b.isZero = false) (hv : c.absValue * b.absValue = a.absValue) (hs : c.sign = (a.sign != b.sign)) :
    a.div b = c := by
  obtain ⟨q, hq⟩ := significand_dvd_of_quotient hv
  have hbsig : b.significand ≠ 0 := by
    rw [ne_eq, significand_eq_zero, ← isZero_iff, hb0]
    simp
  have hquot : a.significand * 2 ^ 50 / b.significand = q := by
    rw [hq, Nat.mul_div_cancel_left _ (Nat.pos_of_ne_zero hbsig)]
  have hrem : a.significand * 2 ^ 50 % b.significand = 0 := by rw [hq, Nat.mul_mod_right]
  have habs : (q : ℚ) * 2 ^ (a.exponent - b.exponent - 50) = c.absValue := by
    have hq' : (a.significand : ℚ) * 2 ^ 50 = b.significand * q := by exact_mod_cast hq
    have hb0' : b.absValue ≠ 0 := by rw [ne_eq, absValue_eq_zero, ← significand_eq_zero]; exact hbsig
    have hpow : (2 : ℚ) ^ 50 * (2 ^ (a.exponent - b.exponent - 50) * 2 ^ b.exponent) = 2 ^ a.exponent := by
      rw [zpow_sub₀ (by norm_num), zpow_sub₀ (by norm_num)]
      field_simp
    apply mul_right_cancel₀ hb0'
    rw [hv, absValue, absValue, ← hpow]
    linear_combination -(2 ^ (a.exponent - b.exponent - 50) * 2 ^ b.exponent) * hq'
  simp only [div, isNaN_of_finite ha, isNaN_of_finite hb, isInf_of_finite ha, isInf_of_finite hb, hb0, Bool.or_self,
    Bool.false_eq_true, if_false, hquot, hrem, bne_self_eq_false]
  rw [roundPack_exact hc habs, ← hs, ofMagnitude_sign_magnitude]

/-! ## Integers and their fractions -/

/-- The datum is the fraction `i / d`; a zero is the positive one. -/
structure IsFraction (x : NUM) (i : Int) (d : ℚ) : Prop where
  finite : x.isFinite = true
  sign : x.sign = decide (i < 0)
  value : x.value = i / d

theorem IsFraction.absValue {x : NUM} {i : Int} {d : ℚ} (hx : IsFraction x i d) : x.absValue = |(i : ℚ) / d| := by
  rw [← abs_value, hx.value]

/-- A datum with the magnitude and the sign of a fraction is that fraction. -/
theorem IsFraction.of_absValue {x : NUM} {i : Int} {d : ℚ} (hfin : x.isFinite = true)
    (hsign : x.sign = decide (i < 0)) (habs : x.absValue = i.natAbs / d) : IsFraction x i d where
  finite := hfin
  sign := hsign
  value := by
    rw [NUM.value, habs, hsign, Nat.cast_natAbs, Int.cast_abs]
    by_cases h : i < 0
    · rw [abs_of_neg (by exact_mod_cast h)]
      simp [h, neg_div]
    · rw [abs_of_nonneg (by exact_mod_cast not_lt.1 h)]
      simp [h]

/-- Every integer of 24 bits over a power of two in range is a fraction that binary32 holds. -/
theorem exists_isFraction {i : Int} (hi : i.natAbs < 2 ^ 24) {k : Nat} (hk : k ≤ 149) :
    ∃ x : NUM, IsFraction x i (2 ^ k) := by
  obtain ⟨x, hfin, hsign, habs⟩ := exists_absValue_eq (decide (i < 0)) hi (e := -(k : Int)) (by omega) (by omega)
  refine ⟨x, .of_absValue hfin hsign ?_⟩
  rw [habs, zpow_neg, zpow_natCast, div_eq_mul_inv]

/-- R12: the conversion of an integer of 24 bits is exact. -/
theorem isFraction_ofInt {i : Int} (hi : i.natAbs < 2 ^ 24) : IsFraction (ofInt i) i 1 := by
  obtain ⟨x, hx⟩ := exists_isFraction hi (k := 0) (by omega)
  rw [pow_zero] at hx
  have habs : (i.natAbs : ℚ) * 2 ^ (0 : Int) = x.absValue := by rw [hx.absValue, Nat.cast_natAbs, Int.cast_abs]; simp
  have hround : ofInt i = x := by
    rw [ofInt, roundPack_exact hx.finite habs, ← hx.sign, ofMagnitude_sign_magnitude]
  exact hround ▸ hx

theorem ofInt_one : ofInt 1 = one := by decide +kernel

theorem ofInt_zero : ofInt 0 = zero := by decide +kernel

theorem isFraction_one : IsFraction one 1 1 := ofInt_one ▸ isFraction_ofInt (by decide)

theorem isFraction_zero : IsFraction zero 0 1 := ofInt_zero ▸ isFraction_ofInt (by decide)

@[simp] theorem value_one : one.value = 1 := by simp [isFraction_one.value]

@[simp] theorem absValue_one : one.absValue = 1 := by rw [← abs_value, value_one, abs_one]

@[simp] theorem sign_one : one.sign = false := isFraction_one.sign

@[simp] theorem sign_zero : zero.sign = false := isFraction_zero.sign

theorem isFraction_scale : IsFraction (ofInt 32768) 32768 1 := isFraction_ofInt (by decide)

theorem isZero_scale : (ofInt 32768).isZero = false := by decide +kernel

/-- R10 N7: the quotient of an integer of 24 bits by 32768 is exact. -/
theorem IsFraction.div_scale {x : NUM} {i : Int} (hx : IsFraction x i 1) (hi : i.natAbs < 2 ^ 24) :
    IsFraction (x.div (ofInt 32768)) i 32768 := by
  obtain ⟨y, hy⟩ := exists_isFraction hi (k := 15) (by omega)
  have hdiv : x.div (ofInt 32768) = y := by
    refine div_exact hx.finite isFraction_scale.finite hy.finite isZero_scale ?_ ?_
    · rw [hy.absValue, hx.absValue, isFraction_scale.absValue, ← abs_mul]
      norm_num
    · rw [hy.sign, hx.sign, isFraction_scale.sign]
      simp
  rw [hdiv]
  convert hy
  norm_num

theorem isFraction_quotient {i : Int} (hi : i.natAbs < 2 ^ 24) :
    IsFraction ((ofInt i).div (ofInt 32768)) i 32768 :=
  (isFraction_ofInt hi).div_scale hi

/-- Fractions of one denominator are ordered as their numerators. -/
theorem IsFraction.order {x y : NUM} {i j : Int} {d : ℚ} (hd : 0 < d) (hx : IsFraction x i d)
    (hy : IsFraction y j d) : x.lt y = decide (i < j) ∧ x.le y = decide (i ≤ j) := by
  rw [lt_eq_decide hx.finite hy.finite, le_eq_decide hx.finite hy.finite, hx.value, hy.value]
  simp [div_lt_div_iff_of_pos_right hd, div_le_div_iff_of_pos_right hd]

/-- The sum of two fractions of one denominator is the fraction of the sum, where binary32 holds that. -/
theorem IsFraction.add_eq {x y z : NUM} {i j : Int} {d : ℚ} (hd : 0 < d) (hx : IsFraction x i d)
    (hy : IsFraction y j d) (hz : IsFraction z (i + j) d) : x.add y = z := by
  refine add_exact hx.finite hy.finite hz.finite ?_ fun hzero => ?_
  · rw [hx.value, hy.value, hz.value, Int.cast_add, add_div]
  · have hsum : i + j = 0 := by
      rw [hz.value, div_eq_zero_iff] at hzero
      exact_mod_cast hzero.resolve_right hd.ne'
    rw [hx.sign, hy.sign, hz.sign, ← Bool.decide_and, decide_eq_decide]
    omega

/-- R10 N7: the quotients grow by one part of 32768. -/
theorem quotient_succ {i : Int} (hi : i.natAbs < 2 ^ 24) (hi' : (i + 1).natAbs < 2 ^ 24) :
    (ofInt (i + 1)).div (ofInt 32768) = ((ofInt i).div (ofInt 32768)).add (one.div (ofInt 32768)) :=
  ((isFraction_quotient hi).add_eq (by norm_num) (isFraction_one.div_scale (by decide))
    (isFraction_quotient hi')).symm

/-- R10 N7: multiplying the quotient by 32768 gives the integer back. -/
theorem quotient_mul_scale {i : Int} (hi : i.natAbs < 2 ^ 24) :
    ((ofInt i).div (ofInt 32768)).mul (ofInt 32768) = ofInt i := by
  have hint := isFraction_ofInt hi
  have hquot := isFraction_quotient hi
  refine mul_exact hquot.finite isFraction_scale.finite hint.finite ?_ ?_
  · rw [hint.absValue, hquot.absValue, isFraction_scale.absValue, ← abs_mul]
    norm_num
  · rw [hquot.sign, hint.sign, isFraction_scale.sign]
    simp

/-- R12: rounding a datum whose value is an integer gives that integer. -/
theorem round_of_isFraction {x : NUM} {i : Int} (hx : IsFraction x i 1) : x.round = i := by
  have habs : (x.significand : ℚ) * 2 ^ x.exponent = i.natAbs * 2 ^ (0 : Int) := by
    rw [← absValue, hx.absValue, Nat.cast_natAbs, Int.cast_abs]
    simp
  have hmag : (if 0 ≤ x.exponent then x.significand * 2 ^ x.exponent.toNat
      else (2 * x.significand + 2 ^ (-x.exponent).toNat) / (2 * 2 ^ (-x.exponent).toNat)) = i.natAbs := by
    split
    case isTrue h => simpa using mul_two_pow_toNat_eq habs h
    case isFalse h =>
      have hsig := mul_two_pow_toNat_eq habs.symm (by omega)
      rw [Int.zero_sub] at hsig
      rw [← hsig]
      have hpos : 0 < 2 ^ (-x.exponent).toNat := by positivity
      generalize 2 ^ (-x.exponent).toNat = d at hpos
      rw [show 2 * (i.natAbs * d) + d = d + 2 * d * i.natAbs by ring, Nat.add_mul_div_left _ _ (by omega),
        Nat.div_eq_of_lt (by omega), Nat.zero_add]
  simp only [round, hx.finite, if_true, hmag, hx.sign, decide_eq_true_eq]
  split <;> omega

/-! ## Operations on zeros -/

@[simp] theorem isZero_neg (x : NUM) : x.neg.isZero = x.isZero := by
  rw [Bool.eq_iff_iff, isZero_iff, isZero_iff, magnitude_neg]

/-- A sum is exact up to the sign of a zero where its value is that of a datum. -/
theorem add_eq_or_isZero {a b x : NUM} (ha : a.isFinite = true) (hb : b.isFinite = true) (hx : x.isFinite = true)
    (hv : x.value = a.value + b.value) : a.add b = x ∨ (x.isZero = true ∧ (a.add b).isZero = true) := by
  by_cases h0 : x.isZero = true
  · have hz := isZero_signedZero (a.sign && b.sign)
    have hsum : a.add b = signedZero (a.sign && b.sign) :=
      add_exact ha hb (finite_of_isZero hz) (by rw [← hv, value_of_isZero h0, value_of_isZero hz])
        fun _ => sign_ofMagnitude ..
    exact .inr ⟨h0, hsum ▸ hz⟩
  · exact .inl (add_exact ha hb hx hv fun h => absurd ((value_eq_zero x).1 h) h0)

/-- A product with a zero is a zero. -/
theorem isZero_mul_of_isZero {a b : NUM} (ha : a.isFinite = true) (hb : b.isFinite = true)
    (h0 : a.isZero = true ∨ b.isZero = true) : (a.mul b).isZero = true := by
  have hz := isZero_signedZero (a.sign != b.sign)
  have hprod : a.mul b = signedZero (a.sign != b.sign) := by
    refine mul_exact ha hb (finite_of_isZero hz) ?_ (sign_ofMagnitude ..)
    rw [(absValue_eq_zero _).2 ((isZero_iff _).1 hz), eq_comm, mul_eq_zero]
    simpa only [absValue_eq_zero, ← isZero_iff] using h0
  exact hprod ▸ hz

/-- 1 and a zero of either sign add to 1. -/
theorem one_add_isZero {z : NUM} (hz : z.isZero = true) : one.add z = one :=
  add_exact isFraction_one.finite (finite_of_isZero hz) isFraction_one.finite (by simp [value_of_isZero hz]) (by simp)

/-- Zero divided by what is neither a NaN nor a zero is a zero. -/
theorem zero_div_eq_signedZero {y : NUM} (hnan : y.isNaN = false) (h0 : y.isZero = false) :
    zero.div y = signedZero y.sign := by
  have hz := isFraction_zero.finite
  have hs := isZero_signedZero y.sign
  by_cases hinf : y.isInf = true
  · simp [div, isNaN_of_finite hz, isInf_of_finite hz, hnan, hinf]
  · have hy : y.isFinite = true := by
      simp only [isFinite_iff, isNaN, isInf, decide_eq_false_iff_not, beq_iff_eq] at *
      omega
    refine div_exact hz hy (finite_of_isZero hs) h0 ?_ ?_
    · rw [(absValue_eq_zero _).2 ((isZero_iff _).1 hs), isFraction_zero.absValue]
      simp
    · rw [sign_zero, signedZero, sign_ofMagnitude]
      simp

/-- The conversion of a positive integer, an infinity where it is too large, is positive and no NaN. -/
theorem ofInt_of_pos {n : Int} (hn : 0 < n) :
    (ofInt n).isNaN = false ∧ (ofInt n).isZero = false ∧ (ofInt n).sign = false := by
  obtain ⟨mag, hpos, hle, heq⟩ : ∃ mag, 0 < mag ∧ mag ≤ infMagnitude ∧ ofInt n = ofMagnitude false mag := by
    have hn0 : n.natAbs ≠ 0 := by omega
    have hexp : 0 < (max (0 + (n.natAbs.log2 : Int) - 23) (-149) + 149).toNat := by omega
    simp only [ofInt, roundPack, hn0, hn.not_gt, decide_false, if_false]
    generalize (if (_ : Int) ≤ 0 then (_ : Nat) else _) = mant
    split
    case isTrue => exact ⟨_, by decide, le_rfl, rfl⟩
    case isFalse h => exact ⟨_, by omega, (not_le.1 h).le, rfl⟩
  have hmag : (ofInt n).magnitude = mag := by
    rw [heq, magnitude_ofMagnitude _ (hle.trans_lt (by decide))]
  refine ⟨?_, ?_, heq ▸ sign_ofMagnitude ..⟩
  · simp [isNaN, hmag, hle]
  · simp [isZero, hmag, hpos.ne']

/-! ## The laws -/

/-- R10 N1. -/
theorem one_mul_of_finite {x : NUM} (hx : x.isFinite = true) : one.mul x = x ∧ x.mul one = x :=
  ⟨mul_exact isFraction_one.finite hx hx (by simp) (by simp),
    mul_exact hx isFraction_one.finite hx (by simp) (by simp)⟩

theorem sub_eq_add_neg_of_finite {x y : NUM} (hx : x.isFinite = true) (hy : y.isFinite = true) :
    x.sub y = x.add y.neg :=
  sub_of_finite (isNaN_of_finite hx) (isNaN_of_finite hy) (isInf_of_finite hy)

/-- R10 N2. -/
theorem add_of_isZero {x z : NUM} (hx : x.isFinite = true) (hz : z.isZero = true) :
    (x.add z = x ∨ (x.isZero = true ∧ (x.add z).isZero = true)) ∧
      (z.add x = x ∨ (x.isZero = true ∧ (z.add x).isZero = true)) := by
  have hzfin := finite_of_isZero hz
  have hz0 := value_of_isZero hz
  exact ⟨add_eq_or_isZero hx hzfin hx (by simp [hz0]), add_eq_or_isZero hzfin hx hx (by simp [hz0])⟩

/-- R10 N4. -/
theorem sub_self_of_finite {x : NUM} (hx : x.isFinite = true) : x.sub x = zero := by
  rw [sub_eq_add_neg_of_finite hx hx]
  exact add_exact hx (by simpa) isFraction_zero.finite (by simp [isFraction_zero.value]) (by simp)

/-- R10 N4 for two zeros. -/
theorem isZero_sub_isZero {z z' : NUM} (hz : z.isZero = true) (hz' : z'.isZero = true) :
    (z.sub z').isZero = true := by
  have hneg : z'.neg.isZero = true := by simpa
  rw [sub_eq_add_neg_of_finite (finite_of_isZero hz) (finite_of_isZero hz')]
  rcases (add_of_isZero (finite_of_isZero hz) hneg).1 with heq | ⟨-, h0⟩
  · rwa [heq]
  · exact h0

/-- R10 N5. -/
theorem one_sub_isZero {z : NUM} (hz : z.isZero = true) : one.sub z = one := by
  rw [sub_eq_add_neg_of_finite isFraction_one.finite (finite_of_isZero hz)]
  exact one_add_isZero (by simpa)

/-- R10 N6. -/
theorem div_one_of_finite {x : NUM} (hx : x.isFinite = true) : x.div one = x :=
  div_exact hx isFraction_one.finite hx (by decide) (by simp) (by simp)

theorem div_self_of_finite {x : NUM} (hx : x.isFinite = true) (h0 : x.isZero = false) : x.div x = one :=
  div_exact hx hx isFraction_one.finite h0 (by simp) (by simp)

theorem isZero_zero : zero.isZero = true := by decide

/-- R10 N8. -/
theorem sin_zero : zero.sin = zero := by simp [sin]

theorem tanh_zero : zero.tanh = zero := by simp [tanh]

theorem sqrt_zero : zero.sqrt = zero := by
  simp [sqrt, isNaN_of_finite isFraction_zero.finite, isZero_zero]

theorem pow10_zero : zero.pow10 = one := by simp [pow10, isZero_zero]

end Sys2Proof.NUM

namespace Sys2Proof

open NUM

/-- R10: the default carrier keeps the laws that every instantiation must keep. -/
theorem binary32_lawful : Num.binary32.Lawful where
  zero_isZero := by simpa using isZero_zero
  finite_of_isZero z hz := finite_of_isZero (by simpa using hz)
  one_finite := isFraction_one.finite
  not_nan_of_finite _ hx := isNaN_of_finite hx
  one_mul _ hx := one_mul_of_finite hx
  add_zero x z hx hz := by
    simpa [Num.same, and_comm] using add_of_isZero hx (by simpa using hz)
  zero_mul x z hx hz := by
    simp only [binary32_isZero] at hz ⊢
    exact ⟨isZero_mul_of_isZero (finite_of_isZero hz) hx (.inl hz),
      isZero_mul_of_isZero hx (finite_of_isZero hz) (.inr hz)⟩
  sub_self _ hx := sub_self_of_finite hx
  zero_sub_zero z z' hz hz' := by
    simp only [binary32_isZero] at hz hz' ⊢
    exact isZero_sub_isZero hz hz'
  one_sub_zero z hz := by
    rw [binary32_isZero] at hz
    exact ⟨one_sub_isZero hz, one_add_isZero hz⟩
  div_one _ hx := div_one_of_finite hx
  div_self x hx h0 := div_self_of_finite hx (by simpa using h0)
  ofInt_zero := ofInt_zero
  ofInt_one := ofInt_one
  ofInt_succ i _ _ :=
    ((isFraction_ofInt (by omega)).add_eq one_pos isFraction_one (isFraction_ofInt (by omega))).symm
  ofInt_finite i _ _ := (isFraction_ofInt (by omega)).finite
  ofInt_order i j _ _ _ _ := (isFraction_ofInt (by omega)).order one_pos (isFraction_ofInt (by omega))
  round_ofInt i _ _ := round_of_isFraction (isFraction_ofInt (by omega))
  zero_div n hn := by
    obtain ⟨hnan, h0, hsign⟩ := ofInt_of_pos hn
    exact (zero_div_eq_signedZero hnan h0).trans (by rw [hsign]; decide)
  quotient_succ i _ _ := by
    simp only [binary32_add, binary32_div, binary32_ofInt, binary32_one]
    exact quotient_succ (by omega) (by omega)
  quotient_finite i _ _ := (isFraction_quotient (by omega)).finite
  quotient_order i j _ _ _ _ := (isFraction_quotient (by omega)).order (by norm_num) (isFraction_quotient (by omega))
  product_exact i _ _ := quotient_mul_scale (by omega)
  sin_zero := sin_zero
  tanh_zero := tanh_zero
  sqrt_zero := sqrt_zero
  pow10_zero := pow10_zero

/-- Settles O52: each law says that an operation whose exact result is the value of a datum gives that datum. -/
theorem carrierLawsHold : Obligations.CarrierLawsHold := by
  refine ⟨binary32_lawful, fun x hx => ?_⟩
  have hz := isZero_zero
  have hhalf (h : Half) : h.toInt.natAbs < 2 ^ 24 := by
    have := BitVec.two_mul_toInt_lt (x := h)
    have := BitVec.le_two_mul_toInt (x := h)
    omega
  exact ⟨(one_mul_of_finite hx).1, (add_of_isZero hx hz).1, (add_of_isZero hx hz).2,
    isZero_mul_of_isZero (finite_of_isZero hz) hx (.inl hz), sub_self_of_finite hx,
    one_sub_isZero hz, one_add_isZero hz, div_one_of_finite hx, div_self_of_finite hx,
    fun h => ⟨round_of_isFraction (isFraction_ofInt (hhalf h)), quotient_mul_scale (hhalf h)⟩,
    sin_zero, tanh_zero, sqrt_zero, pow10_zero⟩

end Sys2Proof
end

section
/-! PROOFS. What each operation can do to the state, said once over every carrier and under all parameters: who writes
the run state, the snapshot and what the worker owns (spec/10_state.md R23, R25, R26, R39). -/

namespace Sys2Proof.Machine

open Sys2Proof Sys2Proof.Claims

variable {F : Type}

/-! ## Checks -/

theorem firstFailing_eq_none {checks : List (Bool × Status)} :
    firstFailing checks = none ↔ ∀ c ∈ checks, c.1 = true := by
  induction checks with
  | nil => simp
  | cons c cs ih =>
    obtain ⟨ok, e⟩ := c
    cases ok <;> simp [ih]

/-- A property of what a guarded command answers: of its refusals, and of what it does where no check fails. -/
theorem State.guarded_induction {P : State F → Prop} {s t : State F} {checks : List (Bool × Status)} {act : Result F}
    (h : s.guarded checks act = .next t) (refused : ∀ e, P (s.refuse e))
    (passed : (∀ c ∈ checks, c.1 = true) → act = .next t → P t) : P t := by
  rcases State.guarded_next h with ⟨e, -, rfl⟩ | ⟨hpass, hact⟩
  · exact refused e
  · exact passed (firstFailing_eq_none.mp hpass) hact

/-! ## What the units leave alone -/

/-- The fields that steer the units and that no unit writes: RUN, SR, SNAP, PEND and ACT are the same. -/
structure SameControl (s t : State F) : Prop where
  run : t.run = s.run
  sr : t.sr = s.sr
  snap : t.snap = s.snap
  pend : t.pend = s.pend
  act : t.act = s.act

theorem SameControl.refl (s : State F) : SameControl s s := ⟨rfl, rfl, rfl, rfl, rfl⟩

theorem SameControl.trans {s t u : State F} (h : SameControl s t) (h' : SameControl t u) : SameControl s u :=
  ⟨h'.run.trans h.run, h'.sr.trans h.sr, h'.snap.trans h.snap, h'.pend.trans h.pend, h'.act.trans h.act⟩

theorem SameControl.respond {s t : State F} (h : SameControl s t) (st : Status) (v : Word) :
    SameControl s (t.respond st v) := ⟨h.run, h.sr, h.snap, h.pend, h.act⟩

theorem SameControl.emit {s t : State F} (h : SameControl s t) (o : Output) : SameControl s (t.emit o) :=
  ⟨h.run, h.sr, h.snap, h.pend, h.act⟩

theorem sameControl_filters (N : Num F) (s : State F) (us : List (Fin 9)) (v : F) :
    SameControl s (s.filters N us v).1 := by
  rw [State.filters_frame]
  exact ⟨rfl, rfl, rfl, rfl, rfl⟩

theorem sameControl_eqStage (p : Params F) (s : State F) (v : F) : SameControl s (s.eqStage p v).1 := by
  unfold State.eqStage
  split
  · exact sameControl_filters ..
  · exact .refl s

theorem sameControl_modulate (p : Params F) (s : State F) (v : F) : SameControl s (s.modulate p v).1 :=
  ⟨rfl, rfl, rfl, rfl, rfl⟩

theorem sameControl_of_complete {s u t : State F} (hu : SameControl s u) (h : complete u = .next t) :
    SameControl s t := by
  rw [complete_next.mp h]
  exact hu.respond ..

theorem sameControl_of_completeValue {N : Num F} {r : Except Fault (State F × F)} {s t : State F}
    (hr : ∀ u y, r = .ok (u, y) → SameControl s u) (h : completeValue N r = .next t) : SameControl s t := by
  obtain ⟨u, y, hu, rfl⟩ := completeValue_next.mp h
  exact (hr u y hu).respond ..

section

variable [DecidableEq F]

theorem sameControl_shift {p : Params F} {s t : State F} {x ratio y : F} (h : s.shift p x ratio = .ok (t, y)) :
    SameControl s t := by
  obtain ⟨ps, -, rfl⟩ := State.shift_ok.mp h
  exact ⟨rfl, rfl, rfl, rfl, rfl⟩

theorem sameControl_reverb {p : Params F} {s t : State F} {x wet y : F} (h : s.reverb p x wet = .ok (t, y)) :
    SameControl s t := by
  obtain ⟨cb, -, rfl⟩ := State.reverb_ok.mp h
  exact ⟨rfl, rfl, rfl, rfl, rfl⟩

theorem sameControl_echo {N : Num F} {s t : State F} {x y : F} (h : s.echo N x = .ok (t, y)) : SameControl s t := by
  obtain ⟨ec, -, rfl⟩ := State.echo_ok.mp h
  exact ⟨rfl, rfl, rfl, rfl, rfl⟩

theorem sameControl_comb {N : Num F} {s t : State F} {k : Fin 3} {x y : F} (h : s.comb N k x = .ok (t, y)) :
    SameControl s t := by
  obtain ⟨c, -, rfl⟩ := State.comb_ok.mp h
  exact ⟨rfl, rfl, rfl, rfl, rfl⟩

theorem sameControl_sample {p : Params F} {s t : State F} {h q : Half} (hs : s.sample p h = .ok (t, q)) :
    SameControl s t := by
  obtain ⟨e, f, s3, v3, m, v, s5, v5, s6, v6, rfl, rfl, h3, rfl, rfl, h5, h6, rfl, -⟩ := State.sample_ok hs
  exact (sameControl_eqStage ..).trans <| (sameControl_filters ..).trans <| (sameControl_shift h3).trans <|
    (sameControl_modulate ..).trans <| (sameControl_filters ..).trans <| (sameControl_reverb h5).trans
      (sameControl_echo h6)

theorem sameControl_samples {p : Params F} {hs : List Half} : ∀ {s t : State F} {qs : List Half},
    s.samples p hs = .ok (t, qs) → SameControl s t := by
  induction hs with
  | nil =>
    intro s t qs h
    cases h
    exact .refl s
  | cons h hs ih =>
    intro s t qs hs'
    obtain ⟨u, q, qs', h1, h2, -⟩ := State.samples_cons_ok.mp hs'
    exact (sameControl_sample h1).trans (ih h2)

/-! ## What an operation can do -/

/-- What FRAME can do: nothing while not Running; otherwise the latch, and after it, for a count above 0, a level
event, the samples and the output frame. -/
theorem execFrameWith_next {p : Params F} {n : Word} {ss : List Half} {s t : State F}
    (h : execFrameWith p n ss s = .next t) :
    t = s ∨ (s.run = .running ∧ (t = s.latched p ∨
      ∃ o o' u qs, ((s.latched p).emit o).samples p ss = .ok (u, qs) ∧ t = u.emit o')) := by
  unfold execFrameWith at h
  split at h
  case isFalse =>
    cases h
    exact .inl rfl
  case isTrue hrun =>
    refine .inr ⟨hrun, ?_⟩
    dsimp only at h
    split at h
    case isTrue =>
      cases h
      exact .inl rfl
    case isFalse =>
      split at h
      · cases h
      · next u qs hsamples =>
        cases h
        exact .inr ⟨_, _, u, qs, hsamples, rfl⟩

theorem sameControl_frame {p : Params F} {n : Word} {ss : List Half} {s t : State F}
    (h : execFrameWith p n ss s = .next t) : t = s ∨ (s.run = .running ∧ SameControl (s.latched p) t) := by
  rcases execFrameWith_next h with rfl | ⟨hrun, rfl | ⟨o, o', u, qs, hsamples, rfl⟩⟩
  · exact .inl rfl
  · exact .inr ⟨hrun, .refl _⟩
  · exact .inr ⟨hrun, (((SameControl.refl (s.latched p)).emit o).trans (sameControl_samples hsamples)).emit o'⟩

/-- What a direct unit operation can do (R98): a refusal, or, in Stopped alone, what a unit does. -/
theorem execWith_unit_next {p : Params F} {i : Instr} {s t : State F} (hi : isUnitOperation i = true)
    (h : execWith p i s = .next t) : (∃ e, t = s.refuse e) ∨ (s.run = .stopped ∧ SameControl s t) := by
  have hguard {checks : List (Bool × Status)} {act : Result F} (hg : s.guarded checks act = .next t)
      (hstop : stoppedCheck s ∈ checks) (hact : act = .next t → SameControl s t) :
      (∃ e, t = s.refuse e) ∨ (s.run = .stopped ∧ SameControl s t) :=
    State.guarded_induction (P := fun t => (∃ e, t = s.refuse e) ∨ (s.run = .stopped ∧ SameControl s t)) hg
      (fun e => .inl ⟨e, rfl⟩) fun hpass ha => .inr ⟨of_decide_eq_true (hpass _ hstop), hact ha⟩
  have hset {u : State F} (hu : SameControl s u) : complete u = .next t → SameControl s t := sameControl_of_complete hu
  have hvalue {N : Num F} {u : State F} {y : F} (hu : SameControl s u) :
      completeValue N (.ok (u, y)) = .next t → SameControl s t :=
    sameControl_of_completeValue fun _ _ he => by cases he; exact hu
  cases i with
  | start ok sr => cases hi
  | stop => cases hi
  | apply a => cases hi
  | frame n ss => cases hi
  | bqByp u => exact hguard h (by simp [biquadSetChecks]) (hset ⟨rfl, rfl, rfl, rfl, rfl⟩)
  | bqPeak u f g q sr => exact hguard h (by simp [biquadSetChecks]) (hset ⟨rfl, rfl, rfl, rfl, rfl⟩)
  | bqLsh u f g sr => exact hguard h (by simp [biquadSetChecks]) (hset ⟨rfl, rfl, rfl, rfl, rfl⟩)
  | bqHsh u f g sr => exact hguard h (by simp [biquadSetChecks]) (hset ⟨rfl, rfl, rfl, rfl, rfl⟩)
  | bqProc u x => exact hguard h (by simp) (hvalue ⟨rfl, rfl, rfl, rfl, rfl⟩)
  | psInit sr => exact hguard h (by simp) (hset ⟨rfl, rfl, rfl, rfl, rfl⟩)
  | psProc x ratio => exact hguard h (by simp) (sameControl_of_completeValue fun _ _ => sameControl_shift)
  | cbInit u len fb => exact hguard h (by simp) (hset ⟨rfl, rfl, rfl, rfl, rfl⟩)
  | cbProc u x => exact hguard h (by simp) (sameControl_of_completeValue fun _ _ => sameControl_comb)
  | rvInit sr => exact hguard h (by simp) (hset ⟨rfl, rfl, rfl, rfl, rfl⟩)
  | rvProc x wet => exact hguard h (by simp) (sameControl_of_completeValue fun _ _ => sameControl_reverb)
  | ecInit len => exact hguard h (by simp) (hset ⟨rfl, rfl, rfl, rfl, rfl⟩)
  | ecCfg d m f => exact hguard h (by simp) (hset ⟨rfl, rfl, rfl, rfl, rfl⟩)
  | ecProc x => exact hguard h (by simp) (sameControl_of_completeValue fun _ _ => sameControl_echo)
  | vpLoad v => exact hguard h (by simp) (hset ⟨rfl, rfl, rfl, rfl, rfl⟩)
  | vmInit sr => exact hguard h (by simp) (hset ⟨rfl, rfl, rfl, rfl, rfl⟩)
  | vmProc x => exact hguard h (by simp) (hvalue (sameControl_modulate ..))
  | lmFrame ss => exact hguard h (by simp) (hvalue (.refl s))

/-- What an operation that answers with a next state has done. -/
inductive Executed (p : Params F) (s : State F) : Instr → State F → Prop
  /-- A refusal (R262). -/
  | refused (i : Instr) (e : Status) : Executed p s i (s.refuse e)
  /-- A START that succeeds (R231). -/
  | started (sr : Word) (hsr : 0 < sr.toInt) (hrun : s.run = .stopped) :
    Executed p s (.start true sr) ((s.started p sr.toInt).respond .ok 1#32)
  /-- A START that completes with FAIL (R231). -/
  | startFailed (ok : Bool) (sr : Word) : Executed p s (.start ok sr) (s.respond .fail 0#32)
  /-- STOP (R233). -/
  | stopped : Executed p s .stop ((s.destroyed p.toNum).respond .ok 0#32)
  /-- APPLY (R234). -/
  | applied (a : DspParameters) (ha : a.wf = true) :
    Executed p s (.apply a) (State.respond .ok 0#32 { s with snap := clamped p a, pend := true })
  /-- A direct unit operation in Stopped (R98). -/
  | unit (i : Instr) (t : State F) (hi : isUnitOperation i = true) (hrun : s.run = .stopped) (ht : SameControl s t) :
    Executed p s i t
  /-- A FRAME that finds no stream (R244). -/
  | noFrame (n : Word) (ss : List Half) : Executed p s (.frame n ss) s
  /-- A FRAME while Running: the latch, then what the units do (R238). -/
  | frame (n : Word) (ss : List Half) (t : State F) (hrun : s.run = .running) (ht : SameControl (s.latched p) t) :
    Executed p s (.frame n ss) t

theorem executed_of_next {p : Params F} {i : Instr} {s t : State F} (h : execWith p i s = .next t) :
    Executed p s i t := by
  have hunit (hi : isUnitOperation i = true) : Executed p s i t := by
    rcases execWith_unit_next hi h with ⟨e, rfl⟩ | ⟨hrun, ht⟩
    · exact .refused i e
    · exact .unit i t hi hrun ht
  cases i with
  | start ok sr =>
    refine State.guarded_induction h (.refused _) fun hpass hact => ?_
    have hrun : s.run = .stopped := of_decide_eq_true (hpass _ (List.mem_singleton_self _))
    split at hact
    case isTrue hok =>
      obtain ⟨rfl, hsr⟩ : ok = true ∧ 0 < sr.toInt :=
      (Bool.and_eq_true_iff.mp hok).imp_right of_decide_eq_true
      cases hact
      exact .started sr hsr hrun
    case isFalse =>
      cases hact
      exact .startFailed ok sr
  | stop =>
    rw [complete_next.mp h]
    exact .stopped
  | apply a =>
    refine State.guarded_induction h (.refused _) fun hpass hact => ?_
    rw [complete_next.mp hact]
    exact .applied a (hpass _ (List.mem_singleton_self _))
  | frame n ss =>
    rcases sameControl_frame h with rfl | ⟨hrun, ht⟩
    · exact .noFrame n ss
    · exact .frame n ss t hrun ht
  | _ => exact hunit rfl

end

/-- The latch leaves RUN and SNAP alone and never sets PEND. -/
theorem State.latched_control (p : Params F) (s : State F) :
    (s.latched p).run = s.run ∧ (s.latched p).snap = s.snap ∧ (s.latched p).pend = false := by
  unfold State.latched
  split
  · exact ⟨rfl, rfl, rfl⟩
  · next h => exact ⟨rfl, rfl, Bool.eq_false_of_not_eq_true h⟩

/-! ## Who writes what -/

/-- Settles O57: of what an operation can do, a START that succeeds and STOP alone leave another RUN. -/
theorem onlyStartAndStopChangeTheRunState : Obligations.OnlyStartAndStopChangeTheRunState := by
  refine ⟨exec_eq, step_eq, fun F _ c i s t h hne => ?_⟩
  cases executed_of_next h with
  | refused e => exact absurd rfl hne
  | started sr hsr hrun => exact .inl ⟨sr, rfl, hsr, hrun, rfl⟩
  | startFailed ok sr => exact absurd rfl hne
  | stopped => exact .inr ⟨rfl, rfl⟩
  | applied a => exact absurd rfl hne
  | unit i t hi hrun ht => exact absurd ht.run hne
  | noFrame => exact absurd rfl hne
  | frame n ss t hrun ht => exact absurd (ht.run.trans (s.latched_control c).1) hne

/-- Settles O58: every operation but APPLY leaves SNAP alone, and PEND is cleared by the others or stays. -/
theorem onlyApplyWritesTheSnapshot : Obligations.OnlyApplyWritesTheSnapshot := by
  intro F _ c i s t h
  have kept (hsnap : t.snap = s.snap) (hpend : t.pend = true → s.pend = true) :
      (t.snap ≠ s.snap → ∃ p, i = .apply p ∧ t.snap = clamped c p) ∧
        (s.pend = false → t.pend = true → ∃ p, i = .apply p) :=
    ⟨fun hne => absurd hsnap hne, fun h0 h1 => absurd (h0.symm.trans (hpend h1)) nofun⟩
  cases executed_of_next h with
  | refused e => exact kept rfl id
  | started sr hsr hrun => exact kept rfl nofun
  | startFailed ok sr => exact kept rfl id
  | stopped => exact kept rfl id
  | applied a => exact ⟨fun _ => ⟨a, rfl, rfl⟩, fun _ _ => ⟨a, rfl⟩⟩
  | unit i t hi hrun ht => exact kept ht.snap fun h1 => ht.pend ▸ h1
  | noFrame => exact kept rfl id
  | frame n ss t hrun ht =>
    obtain ⟨-, hsnap, hpend⟩ := s.latched_control c
    exact kept (ht.snap.trans hsnap) fun h1 => absurd ((ht.pend.trans hpend).symm.trans h1) nofun

/-- Settles O59: while Running a command is STOP, APPLY, or answered without any other change. -/
theorem commandsLeaveTheWorkersStateAlone : Obligations.CommandsLeaveTheWorkersStateAlone := by
  intro F _ c i s t hrunning hcmd hstop h
  cases executed_of_next h with
  | refused e => exact ⟨hrunning, rfl, rfl, rfl, rfl, rfl, rfl, rfl, rfl⟩
  | started sr hsr hrun => exact absurd (hrunning.symm.trans hrun) nofun
  | startFailed ok sr => exact ⟨hrunning, rfl, rfl, rfl, rfl, rfl, rfl, rfl, rfl⟩
  | stopped => exact absurd rfl hstop
  | applied a => exact ⟨hrunning, rfl, rfl, rfl, rfl, rfl, rfl, rfl, rfl⟩
  | unit i t hi hrun ht => exact absurd (hrunning.symm.trans hrun) nofun
  | noFrame => cases hcmd
  | frame => cases hcmd

end Sys2Proof.Machine
end

section
/-! PROOFS. Rounded results of the default carrier: a rounding never passes a datum, so that a result lies between data
that bound the exact one, and no operation on what is no NaN gives one where the rules name none. -/

namespace Sys2Proof.NUM

/-! ## Rounding never passes a datum -/

theorem shiftRound_le {m j k : Nat} (sticky : Bool) (h : m ≤ k * 2 ^ j) : shiftRound m j sticky ≤ k := by
  have hpos : 0 < 2 ^ j := by positivity
  have hq : m / 2 ^ j ≤ k := Nat.div_le_of_le_mul (by rwa [Nat.mul_comm])
  rcases Nat.lt_or_eq_of_le hq with hlt | heq
  · unfold shiftRound
    dsimp only
    split <;> omega
  · have hrem : m % 2 ^ j = 0 := by
      have := Nat.div_add_mod m (2 ^ j)
      rw [heq, Nat.mul_comm] at this
      omega
    simp [shiftRound, heq, hrem, hpos.ne]

theorem le_shiftRound {m j k : Nat} (sticky : Bool) (h : k * 2 ^ j ≤ m) : k ≤ shiftRound m j sticky := by
  have hq : k ≤ m / 2 ^ j := (Nat.le_div_iff_mul_le (by positivity)).2 h
  unfold shiftRound
  dsimp only
  split <;> omega

/-- The number `m * 2^e` rounded to a multiple of `2^t`, as that multiple. -/
def mantissa (m : Nat) (e t : Int) (sticky : Bool) : Nat :=
  if t ≤ e then m * 2 ^ (e - t).toNat else shiftRound m (t - e).toNat sticky

/-- One factor `2^j` moved between the number and the power. -/
theorem mul_two_zpow_add (k : Nat) (e : Int) (j : Nat) : (k : ℚ) * 2 ^ (e + j) = (k * 2 ^ j : Nat) * 2 ^ e := by
  rw [zpow_add₀ (by norm_num), zpow_natCast]
  push_cast
  ring

theorem mul_two_zpow_le_iff {m k : Nat} {e : Int} : (m : ℚ) * 2 ^ e ≤ k * 2 ^ e ↔ m ≤ k := by
  have hpow : (0 : ℚ) < 2 ^ e := by positivity
  rw [mul_le_mul_iff_left₀ hpow, Nat.cast_le]

theorem mantissa_le {m k : Nat} {e t : Int} (sticky : Bool) (h : (m : ℚ) * 2 ^ e ≤ k * 2 ^ t) :
    mantissa m e t sticky ≤ k := by
  unfold mantissa
  split
  case isTrue hle =>
    obtain ⟨j, rfl⟩ := Int.le.dest hle
    rwa [mul_two_zpow_add, mul_two_zpow_le_iff, ← Int.toNat_natCast j, ← add_sub_cancel_left t j] at h
  case isFalse hlt =>
    obtain ⟨j, rfl⟩ := Int.le.dest (not_le.1 hlt).le
    rw [mul_two_zpow_add, mul_two_zpow_le_iff, ← Int.toNat_natCast j, ← add_sub_cancel_left e j] at h
    exact shiftRound_le sticky h

theorem le_mantissa {m k : Nat} {e t : Int} (sticky : Bool) (h : (k : ℚ) * 2 ^ t ≤ m * 2 ^ e) :
    k ≤ mantissa m e t sticky := by
  unfold mantissa
  split
  case isTrue hle =>
    obtain ⟨j, rfl⟩ := Int.le.dest hle
    rwa [mul_two_zpow_add, mul_two_zpow_le_iff, ← Int.toNat_natCast j, ← add_sub_cancel_left t j] at h
  case isFalse hlt =>
    obtain ⟨j, rfl⟩ := Int.le.dest (not_le.1 hlt).le
    rw [mul_two_zpow_add, mul_two_zpow_le_iff, ← Int.toNat_natCast j, ← add_sub_cancel_left e j] at h
    exact le_shiftRound sticky h

/-- The exponent that rounding takes for `m * 2^e`. -/
def roundedExponent (m : Nat) (e : Int) : Int := max (e + Nat.log2 m - 23) (-149)

/-- The magnitude that rounding gives `m * 2^e`. -/
def roundedMagnitude (m : Nat) (e : Int) (sticky : Bool) : Nat :=
  if m = 0 then 0
  else min infMagnitude
    ((roundedExponent m e + 149).toNat * 2 ^ 23 + mantissa m e (roundedExponent m e) sticky)

theorem roundPack_eq (s : Bool) (m : Nat) (e : Int) (sticky : Bool) :
    roundPack s m e sticky = ofMagnitude s (roundedMagnitude m e sticky) := by
  unfold roundPack roundedMagnitude signedZero signedInf
  dsimp only
  rw [← roundedExponent, ← mantissa]
  split
  · rfl
  · split
    · next h => rw [min_eq_left h]
    · next h => rw [min_eq_right (by omega)]

theorem roundedMagnitude_le_inf (m : Nat) (e : Int) (sticky : Bool) :
    roundedMagnitude m e sticky ≤ infMagnitude := by
  unfold roundedMagnitude
  split
  · exact Nat.zero_le _
  · exact min_le_left ..

theorem magnitude_roundPack (s : Bool) (m : Nat) (e : Int) (sticky : Bool) :
    (roundPack s m e sticky).magnitude = roundedMagnitude m e sticky := by
  rw [roundPack_eq, magnitude_ofMagnitude]
  exact (roundedMagnitude_le_inf ..).trans_lt (by decide)

@[simp] theorem sign_roundPack (s : Bool) (m : Nat) (e : Int) (sticky : Bool) :
    (roundPack s m e sticky).sign = s := by
  rw [roundPack_eq, sign_ofMagnitude]

@[simp] theorem isNaN_roundPack (s : Bool) (m : Nat) (e : Int) (sticky : Bool) :
    (roundPack s m e sticky).isNaN = false := by
  rw [isNaN, magnitude_roundPack, decide_eq_false_iff_not, not_lt]
  exact roundedMagnitude_le_inf ..

theorem two_pow_mul_two_zpow (k : Nat) (e : Int) : ((2 ^ k : Nat) : ℚ) * 2 ^ e = 2 ^ (e + k) := by
  simpa using (mul_two_zpow_add 1 e k).symm

/-- The exponents between which a number that is not zero lies. -/
theorem two_zpow_log2_le {m : Nat} (hm : m ≠ 0) (e : Int) :
    (2 : ℚ) ^ (e + m.log2) ≤ m * 2 ^ e ∧ (m : ℚ) * 2 ^ e < 2 ^ (e + (m.log2 + 1 : Nat)) := by
  rw [← two_pow_mul_two_zpow, ← two_pow_mul_two_zpow, ← not_le, mul_two_zpow_le_iff, mul_two_zpow_le_iff, not_le]
  exact ⟨Nat.log2_self_le hm, Nat.lt_log2_self⟩

theorem absValue_lt_two_zpow (x : NUM) : x.absValue < 2 ^ (x.exponent + (24 : Nat)) := by
  rw [absValue, ← two_pow_mul_two_zpow, ← not_le, mul_two_zpow_le_iff, not_le]
  exact x.significand_lt

theorem two_zpow_le_absValue {x : NUM} (h : 2 ^ 23 ≤ x.significand) :
    (2 : ℚ) ^ (x.exponent + (23 : Nat)) ≤ x.absValue := by
  rwa [absValue, ← two_pow_mul_two_zpow, mul_two_zpow_le_iff]

theorem exponent_lt_of_two_zpow_lt {i j : Int} (h : (2 : ℚ) ^ i < 2 ^ j) : i < j :=
  (zpow_lt_zpow_iff_right₀ (by norm_num)).1 h

/-- Rounding a number that no datum `c` is below gives no magnitude above that of `c`. -/
theorem roundedMagnitude_le {c : NUM} {m : Nat} {e : Int} (sticky : Bool) (h : (m : ℚ) * 2 ^ e ≤ c.absValue) :
    roundedMagnitude m e sticky ≤ c.magnitude := by
  have hmag := magnitude_eq_exponent_significand c
  have hexp := c.le_exponent
  have hcanon := c.exponent_eq_or_le_significand
  unfold roundedMagnitude
  split
  case isTrue => exact Nat.zero_le _
  case isFalse hm =>
    refine (min_le_right ..).trans ?_
    obtain ⟨hlo, hhi⟩ := two_zpow_log2_le hm e
    have hle := exponent_lt_of_two_zpow_lt ((hlo.trans h).trans_lt c.absValue_lt_two_zpow)
    have ht : roundedExponent m e = max (e + Nat.log2 m - 23) (-149) := rfl
    rcases (by omega : roundedExponent m e = c.exponent ∨ roundedExponent m e < c.exponent) with heq | hlt
    · have hmant : mantissa m e c.exponent sticky ≤ c.significand := mantissa_le sticky h
      rw [heq]
      omega
    · have hmant : mantissa m e (roundedExponent m e) sticky ≤ 2 ^ 24 := by
        refine mantissa_le sticky (hhi.le.trans ?_)
        rw [two_pow_mul_two_zpow]
        exact zpow_le_zpow_right₀ (by norm_num) (by omega)
      omega

/-- Rounding a number that is not below a finite datum `c` gives no magnitude below that of `c`. -/
theorem le_roundedMagnitude {c : NUM} (hc : c.isFinite = true) {m : Nat} {e : Int} (sticky : Bool)
    (h : c.absValue ≤ m * 2 ^ e) : c.magnitude ≤ roundedMagnitude m e sticky := by
  have hmag := magnitude_eq_exponent_significand c
  have hexp := c.le_exponent
  have hsig := c.significand_lt
  have hcanon := c.exponent_eq_or_le_significand
  unfold roundedMagnitude
  split
  case isTrue hm =>
    have h0 : c.absValue ≤ 0 := by simpa [hm] using h
    rw [(absValue_eq_zero c).1 (h0.antisymm c.absValue_nonneg)]
  case isFalse hm =>
    refine le_min ((isFinite_iff c).1 hc).le ?_
    obtain ⟨-, hhi⟩ := two_zpow_log2_le hm e
    have ht : roundedExponent m e = max (e + Nat.log2 m - 23) (-149) := rfl
    have hle : c.exponent ≤ roundedExponent m e := by
      rcases hcanon with hsub | hnormal
      · omega
      · have := exponent_lt_of_two_zpow_lt (((two_zpow_le_absValue hnormal).trans h).trans_lt hhi)
        omega
    rcases hle.eq_or_lt with heq | hlt
    · have hmant : c.significand ≤ mantissa m e (roundedExponent m e) sticky :=
        le_mantissa sticky (by rw [← heq]; exact h)
      omega
    · have hmant : 2 ^ 23 ≤ mantissa m e (roundedExponent m e) sticky := by
        refine le_mantissa sticky (le_trans ?_ (two_zpow_log2_le hm e).1)
        rw [two_pow_mul_two_zpow]
        exact zpow_le_zpow_right₀ (by norm_num) (by omega)
      omega

/-! ## Data by their magnitudes -/

theorem absValue_le_iff (x y : NUM) : x.absValue ≤ y.absValue ↔ x.magnitude ≤ y.magnitude := by
  rw [← not_lt, absValue_lt_iff, not_lt]

theorem isFinite_of_magnitude_le {x c : NUM} (hc : c.isFinite = true) (h : x.magnitude ≤ c.magnitude) :
    x.isFinite = true :=
  (isFinite_iff x).2 (h.trans_lt ((isFinite_iff c).1 hc))

theorem value_eq_absValue {x : NUM} (hx : 0 ≤ x.value) : x.value = x.absValue := by
  rw [← abs_value, abs_of_nonneg hx]

theorem value_nonneg_of_sign {x : NUM} (h : x.sign = false) : 0 ≤ x.value := by
  simp [value, h, absValue_nonneg]

/-! ## Sums, differences and quotients between data -/

/-- A sum whose exact value no finite datum `c` is below in magnitude is not above it, and keeps a sign that is not
negative. -/
theorem add_le_of_le {a b c : NUM} (ha : a.isFinite = true) (hb : b.isFinite = true)
    (h : |a.value + b.value| ≤ c.absValue) :
    (a.add b).magnitude ≤ c.magnitude ∧ (0 ≤ a.value + b.value → 0 ≤ (a.add b).value) := by
  have hsum (e : Int) (hea : e ≤ a.exponent) (heb : e ≤ b.exponent) :
      ((a.scaled e + b.scaled e : Int) : ℚ) * 2 ^ e = a.value + b.value := by
    rw [Int.cast_add, add_mul, scaled_mul_two_zpow a hea, scaled_mul_two_zpow b heb]
  simp only [add, isNaN_of_finite ha, isNaN_of_finite hb, isInf_of_finite ha, isInf_of_finite hb, Bool.or_self,
    Bool.false_eq_true, if_false]
  generalize he : min a.exponent b.exponent = e
  specialize hsum e (by omega) (by omega)
  generalize a.scaled e + b.scaled e = sum at hsum
  have hpow : (0 : ℚ) < 2 ^ e := by positivity
  split
  case isTrue =>
    have hz := isZero_signedZero (a.sign && b.sign)
    exact ⟨by rw [(isZero_iff _).1 hz]; exact Nat.zero_le _, fun _ => (value_of_isZero hz).ge⟩
  case isFalse =>
    constructor
    · rw [magnitude_roundPack]
      refine roundedMagnitude_le false ?_
      rwa [Nat.cast_natAbs, Int.cast_abs, ← abs_of_nonneg hpow.le, ← abs_mul, hsum]
    · intro h0
      have hsign : ¬ sum < 0 := by
        rw [← hsum, mul_nonneg_iff_of_pos_right hpow] at h0
        exact not_lt.2 (by exact_mod_cast h0)
      exact value_nonneg_of_sign (by simp [hsign])

theorem sub_le_of_le {a b c : NUM} (ha : a.isFinite = true) (hb : b.isFinite = true)
    (h : |a.value - b.value| ≤ c.absValue) :
    (a.sub b).magnitude ≤ c.magnitude ∧ (0 ≤ a.value - b.value → 0 ≤ (a.sub b).value) := by
  rw [sub_eq_add_neg, ← value_neg] at h ⊢
  rw [sub_eq_add_neg_of_finite ha hb]
  exact add_le_of_le ha (by simpa) h

/-- The value of a sum that is not negative, between 0 and a finite datum that the exact sum is not above. -/
theorem add_between {a b c : NUM} (ha : a.isFinite = true) (hb : b.isFinite = true) (hc : c.isFinite = true)
    (h0 : 0 ≤ a.value + b.value) (h : a.value + b.value ≤ c.absValue) :
    (a.add b).isFinite = true ∧ 0 ≤ (a.add b).value ∧ (a.add b).value ≤ c.absValue := by
  obtain ⟨hmag, hsign⟩ := add_le_of_le ha hb (by rwa [abs_of_nonneg h0])
  exact ⟨isFinite_of_magnitude_le hc hmag, hsign h0,
    (value_eq_absValue (hsign h0)).trans_le ((absValue_le_iff ..).2 hmag)⟩

theorem sub_between {a b c : NUM} (ha : a.isFinite = true) (hb : b.isFinite = true) (hc : c.isFinite = true)
    (h0 : 0 ≤ a.value - b.value) (h : a.value - b.value ≤ c.absValue) :
    (a.sub b).isFinite = true ∧ 0 ≤ (a.sub b).value ∧ (a.sub b).value ≤ c.absValue := by
  rw [sub_eq_add_neg, ← value_neg] at h0 h
  rw [sub_eq_add_neg_of_finite ha hb]
  exact add_between ha (by simpa) hc h0 h

/-- The quotient of finite data as a rounding. -/
theorem div_eq_roundPack {a b : NUM} (ha : a.isFinite = true) (hb : b.isFinite = true) (hb0 : b.isZero = false) :
    a.div b = roundPack (a.sign != b.sign) (a.significand * 2 ^ 50 / b.significand) (a.exponent - b.exponent - 50)
      (a.significand * 2 ^ 50 % b.significand != 0) := by
  simp [div, isNaN_of_finite ha, isNaN_of_finite hb, isInf_of_finite ha, isInf_of_finite hb, hb0]

theorem absValue_pos {x : NUM} (h : x.isZero = false) : 0 < x.absValue :=
  x.absValue_nonneg.lt_of_ne' fun h0 => by simp [isZero, (absValue_eq_zero x).1 h0] at h

theorem magnitude_div_le {a b c : NUM} (ha : a.isFinite = true) (hb : b.isFinite = true) (hb0 : b.isZero = false)
    (h : a.absValue ≤ c.absValue * b.absValue) : (a.div b).magnitude ≤ c.magnitude := by
  rw [div_eq_roundPack ha hb hb0, magnitude_roundPack]
  refine roundedMagnitude_le _ ?_
  have hpos := absValue_pos hb0
  calc ((a.significand * 2 ^ 50 / b.significand : Nat) : ℚ) * 2 ^ (a.exponent - b.exponent - 50)
      ≤ ((a.significand * 2 ^ 50 : Nat) / b.significand : ℚ) * 2 ^ (a.exponent - b.exponent - 50) := by
        gcongr
        exact Nat.cast_div_le
    _ = a.absValue / b.absValue := by
        rw [absValue, absValue, zpow_sub₀ (by norm_num), zpow_sub₀ (by norm_num)]
        push_cast
        field_simp
    _ ≤ c.absValue := (div_le_iff₀ hpos).2 h

/-- A quotient that is far from underflow is not zero. -/
theorem magnitude_div_ne_zero {a b : NUM} (ha : a.isFinite = true) (hb : b.isFinite = true) (hb0 : b.isZero = false)
    (ha1 : 1 ≤ a.absValue) (hb24 : b.absValue ≤ 2 ^ (24 : Int)) : (a.div b).magnitude ≠ 0 := by
  have hmin : ∃ c : NUM, c.isFinite = true ∧ c.absValue = 2 ^ (-149 : Int) := by
    obtain ⟨c, hc, -, hv⟩ := exists_absValue_eq false (m := 1) (by decide) (e := -149) le_rfl (by decide)
    exact ⟨c, hc, by simpa using hv⟩
  obtain ⟨c, hc, hv⟩ := hmin
  have hc0 : c.magnitude ≠ 0 := by
    rw [ne_eq, ← absValue_eq_zero, hv]
    positivity
  have hexpa := exponent_lt_of_two_zpow_lt ((zpow_zero (2 : ℚ) ▸ ha1).trans_lt a.absValue_lt_two_zpow)
  have hexpb : b.exponent ≤ 1 := by
    rcases b.exponent_eq_or_le_significand with hsub | hnormal
    · omega
    · have := (zpow_le_zpow_iff_right₀ (by norm_num)).1 ((two_zpow_le_absValue hnormal).trans hb24)
      omega
  have hquot : 1 ≤ a.significand * 2 ^ 50 / b.significand := by
    have hb1 : b.significand ≠ 0 := by
      rw [ne_eq, significand_eq_zero, ← isZero_iff, hb0]
      decide
    have ha0 : a.significand ≠ 0 := by
      rw [ne_eq, significand_eq_zero, ← absValue_eq_zero]
      linarith
    have := b.significand_lt
    rw [Nat.le_div_iff_mul_le (by omega)]
    omega
  rw [div_eq_roundPack ha hb hb0, magnitude_roundPack]
  have hle : c.magnitude ≤ _ := le_roundedMagnitude hc (a.significand * 2 ^ 50 % b.significand != 0) (by
    rw [hv]
    calc (2 : ℚ) ^ (-149 : Int) ≤ 2 ^ (a.exponent - b.exponent - 50) :=
          zpow_le_zpow_right₀ (by norm_num) (by omega)
      _ = (1 : Nat) * 2 ^ (a.exponent - b.exponent - 50) := by simp
      _ ≤ _ := mul_two_zpow_le_iff.2 hquot)
  omega

/-! ## No NaN -/

theorem isNaN_neg (x : NUM) : x.neg.isNaN = x.isNaN := by
  simp [isNaN]

theorem isNaN_ofInt (i : Int) : (ofInt i).isNaN = false := isNaN_roundPack ..

theorem isNaN_signedZero (s : Bool) : (signedZero s).isNaN = false :=
  isNaN_of_finite (finite_of_isZero (isZero_signedZero s))

theorem isNaN_signedInf (s : Bool) : (signedInf s).isNaN = false := by
  simp [isNaN, signedInf, magnitude_ofMagnitude s (by decide : infMagnitude < 2 ^ 31)]

/-- A sum is a NaN only where an operand is one or both are infinite. -/
theorem isNaN_add {a b : NUM} (ha : a.isNaN = false) (hb : b.isNaN = false) (h : a.isInf = false ∨ b.isInf = false) :
    (a.add b).isNaN = false := by
  simp only [add, ha, hb, Bool.or_self, Bool.false_eq_true, if_false]
  split
  case isTrue hainf =>
    have hbinf : b.isInf = false := h.resolve_left (by simp [hainf])
    simpa [hbinf] using ha
  case isFalse =>
    split
    · exact hb
    · split
      · exact isNaN_signedZero _
      · exact isNaN_roundPack ..

theorem isNaN_sub {a b : NUM} (ha : a.isFinite = true) (hb : b.isNaN = false) : (a.sub b).isNaN = false := by
  simp only [sub, isNaN_of_finite ha, isInf_of_finite ha, hb, Bool.false_and, Bool.or_self, Bool.false_eq_true,
    if_false]
  exact isNaN_add (isNaN_of_finite ha) (by rwa [isNaN_neg]) (.inl (isInf_of_finite ha))

/-- A product with a finite datum other than zero is a NaN only where the other is one. -/
theorem isNaN_mul {a b : NUM} (ha : a.isFinite = true) (ha0 : a.isZero = false) (hb : b.isNaN = false) :
    (a.mul b).isNaN = false := by
  simp only [mul, isNaN_of_finite ha, isInf_of_finite ha, hb, ha0, Bool.false_or, Bool.or_self, Bool.false_eq_true,
    if_false]
  split
  case isTrue hinf =>
    have hb0 : b.isZero = false := by
      rw [Bool.eq_false_iff, ne_eq, isZero_iff]
      intro h0
      simp [isInf, h0, infMagnitude] at hinf
    simp only [hb0, Bool.false_eq_true, if_false]
    exact isNaN_signedInf _
  case isFalse => exact isNaN_roundPack ..

theorem isNaN_mul_of_finite {a b : NUM} (ha : a.isFinite = true) (hb : b.isFinite = true) :
    (a.mul b).isNaN = false := by
  simp only [mul, isNaN_of_finite ha, isInf_of_finite ha, isNaN_of_finite hb, isInf_of_finite hb, Bool.or_self,
    Bool.false_eq_true, if_false]
  exact isNaN_roundPack ..

/-! ## Order -/

theorem isNaN_of_le {a b : NUM} (h : a.le b = true) : a.isNaN = false ∧ b.isNaN = false := by
  simp only [le, Bool.and_eq_true, Bool.not_eq_true'] at h
  exact h.1

theorem le_le_trans {a b c : NUM} (hab : a.le b = true) (hbc : b.le c = true) : a.le c = true := by
  simp only [le, Bool.and_eq_true, Bool.not_eq_true', decide_eq_true_eq] at hab hbc ⊢
  obtain ⟨⟨ha, -⟩, h1⟩ := hab
  obtain ⟨⟨-, hc⟩, h2⟩ := hbc
  exact ⟨⟨ha, hc⟩, h1.trans h2⟩

theorem le_of_not_lt {a b : NUM} (ha : a.isNaN = false) (hb : b.isNaN = false) (h : a.lt b = false) :
    b.le a = true := by
  simpa [lt, le, ha, hb] using h

theorem le_self {a : NUM} (ha : a.isNaN = false) : a.le a = true := by
  simp [le, ha]

/-- What lies between finite data is finite. -/
theorem isFinite_of_between {lo x hi : NUM} (hlo : lo.isFinite = true) (hhi : hi.isFinite = true)
    (h1 : lo.le x = true) (h2 : x.le hi = true) : x.isFinite = true := by
  rw [isFinite_iff] at hlo hhi ⊢
  simp only [le, Bool.and_eq_true, Bool.not_eq_true', decide_eq_true_eq] at h1 h2
  have hle : lo.order ≤ x.order ∧ x.order ≤ hi.order := ⟨h1.2, h2.2⟩
  unfold order at hle
  split at hle <;> split at hle <;> split at hle <;> omega

/-! ## Integers up to `2^24` -/

/-- A datum whose magnitude is that of an integer is, with its sign, the conversion of the integer. -/
theorem isFraction_ofInt_of_absValue {x : NUM} {i : Int} (hx : x.isFinite = true) (h : x.absValue = i.natAbs) :
    IsFraction (ofInt i) i 1 := by
  have hround : ofInt i = ofMagnitude (i < 0) x.magnitude :=
    roundPack_exact hx (by rw [zpow_zero, mul_one, h]) _
  have hmag : (ofInt i).magnitude = x.magnitude := by
    have := (isFinite_iff x).1 hx
    rw [hround, magnitude_ofMagnitude]
    exact this.trans (by decide)
  refine .of_absValue ?_ (hround ▸ sign_ofMagnitude ..) ?_
  · rwa [isFinite_iff, hmag, ← isFinite_iff]
  · rw [absValue_congr hmag, h, div_one]

/-- R12: the conversion of an integer up to `2^24` is exact, as that of the greatest size with an exact read cursor
(log 29). -/
theorem isFraction_ofInt_of_le {i : Int} (hi : i.natAbs ≤ 2 ^ 24) : IsFraction (ofInt i) i 1 := by
  rcases hi.eq_or_lt with heq | hlt
  · obtain ⟨x, hx, -, hv⟩ := exists_absValue_eq false (m := 1) (by decide) (e := 24) (by decide) (by decide)
    refine isFraction_ofInt_of_absValue hx (hv.trans ?_)
    rw [heq]
    norm_num
  · exact isFraction_ofInt hlt

theorem value_ofInt {i : Int} (hi : i.natAbs ≤ 2 ^ 24) : (ofInt i).value = i := by
  simpa using (isFraction_ofInt_of_le hi).value

theorem isFinite_ofInt {i : Int} (hi : i.natAbs ≤ 2 ^ 24) : (ofInt i).isFinite = true :=
  (isFraction_ofInt_of_le hi).finite

theorem absValue_ofInt {i : Int} (hi : i.natAbs ≤ 2 ^ 24) : (ofInt i).absValue = i.natAbs := by
  rw [← abs_value, value_ofInt hi, Nat.cast_natAbs, Int.cast_abs]

theorem le_ofInt {i j : Int} (hi : i.natAbs ≤ 2 ^ 24) (hj : j.natAbs ≤ 2 ^ 24) :
    (ofInt i).le (ofInt j) = decide (i ≤ j) :=
  ((isFraction_ofInt_of_le hi).order one_pos (isFraction_ofInt_of_le hj)).2

/-- The difference of two integers is exact where binary32 holds it. -/
theorem ofInt_sub_ofInt {i j : Int} (hi : i.natAbs ≤ 2 ^ 24) (hj : j.natAbs ≤ 2 ^ 24)
    (hij : (i - j).natAbs ≤ 2 ^ 24) : (ofInt i).sub (ofInt j) = ofInt (i - j) := by
  have hx := isFraction_ofInt_of_le hi
  have hy := isFraction_ofInt_of_le hj
  have hz := isFraction_ofInt_of_le hij
  rw [sub_eq_add_neg_of_finite hx.finite hy.finite]
  refine add_exact hx.finite (by simpa using hy.finite) hz.finite ?_ fun h0 => ?_
  · rw [value_neg, value_ofInt hi, value_ofInt hj, value_ofInt hij]
    push_cast
    ring
  · rw [value_ofInt hij, Int.cast_eq_zero] at h0
    rw [hx.sign, sign_neg, hy.sign, hz.sign, Bool.eq_iff_iff]
    simp only [Bool.and_eq_true, decide_eq_true_eq, Bool.not_eq_true', decide_eq_false_iff_not]
    omega

/-- The floor of a finite datum is the integer below its value (R12). -/
theorem floor_eq_of_value {x : NUM} {n : Int} (hx : x.isFinite = true) (h1 : (n : ℚ) ≤ x.value)
    (h2 : x.value < n + 1) : x.floor = n := by
  have hvalue : x.value = ((if x.sign then -(x.significand : Int) else x.significand : Int) : ℚ) * 2 ^ x.exponent := by
    unfold value absValue
    split <;> push_cast <;> ring
  have hfloor : ⌊x.value⌋ = n := Int.floor_eq_iff.2 ⟨h1, h2⟩
  simp only [floor, hx, if_true]
  generalize (if x.sign then -(x.significand : Int) else x.significand : Int) = m at hvalue
  rw [← hfloor, hvalue]
  split
  case isTrue he =>
    obtain ⟨k, hk⟩ := Int.eq_ofNat_of_zero_le he
    rw [hk, zpow_natCast, Int.toNat_natCast]
    exact_mod_cast (Int.floor_intCast (R := ℚ) (m * 2 ^ k)).symm
  case isFalse he =>
    obtain ⟨k, hk⟩ := Int.eq_ofNat_of_zero_le (by omega : 0 ≤ -x.exponent)
    rw [show x.exponent = -(k : Int) by omega, neg_neg, Int.toNat_natCast, zpow_neg, zpow_natCast, ← div_eq_mul_inv]
    have := Rat.floor_intCast_div_natCast m (2 ^ k)
    push_cast at this
    exact this.symm

end Sys2Proof.NUM
end

section
/-! PROOFS. The cursors of the pitch shifter over the default carrier (spec/42_pitch_shifter.md R157 to R160; log 29):
an anchored read cursor stands exactly `minGap` behind the write cursor, and a sample leaves the read cursor in range
and, where the band is not empty, in the band. -/

namespace Sys2Proof.Machine

open Sys2Proof NUM

/-! ## The distance of integer cursors -/

/-- Quotient and remainder of an integer below the divisor in magnitude. -/
theorem ediv_emod_of_natAbs_lt {k n : Int} (hk : k.natAbs < n.natAbs) (hn0 : 0 < n) :
    (k < 0 ∧ k / n = -1 ∧ k % n = k + n) ∨ (0 ≤ k ∧ k / n = 0 ∧ k % n = k) := by
  rcases lt_or_ge k 0 with hneg | hnonneg
  · exact .inl ⟨hneg, (Int.ediv_emod_unique hn0).2 (by omega)⟩
  · exact .inr ⟨hnonneg, (Int.ediv_emod_unique hn0).2 (by omega)⟩

/-- A quotient of integers below 1 in magnitude, rounded, is still below 1, so that its floor is exact. -/
theorem floor_ofInt_div_ofInt {k n : Int} (hk : k.natAbs < n.natAbs) (hn0 : 0 < n) (hn : n.natAbs ≤ 2 ^ 24) :
    ((ofInt k).div (ofInt n)).floor = k / n := by
  have hk24 := hk.le.trans hn
  have hkfin := isFinite_ofInt hk24
  have hnfin := isFinite_ofInt hn
  obtain ⟨-, hnz, hnsign⟩ := ofInt_of_pos hn0
  have hn' : (n.natAbs : ℚ) ≤ 2 ^ 24 := by exact_mod_cast hn
  have hk' : (k.natAbs : ℚ) + 1 ≤ n.natAbs := by exact_mod_cast hk
  obtain ⟨c, hc, -, hv⟩ := exists_absValue_eq false (m := 2 ^ 24 - 1) (by decide) (e := -24) (by decide) (by decide)
  have hc1 : c.absValue = 1 - 1 / 2 ^ 24 := by
    rw [hv]
    norm_num
  have hmag := magnitude_div_le hkfin hnfin hnz (c := c) (by
    rw [absValue_ofInt hk24, absValue_ofInt hn, hc1]
    linarith)
  have hfin := isFinite_of_magnitude_le hc hmag
  have hlt : ((ofInt k).div (ofInt n)).absValue < 1 :=
    ((absValue_le_iff ..).2 hmag).trans_lt (by rw [hc1]; norm_num)
  have hnonneg := absValue_nonneg ((ofInt k).div (ofInt n))
  have hsign : ((ofInt k).div (ofInt n)).sign = decide (k < 0) := by
    rw [div_eq_roundPack hkfin hnfin hnz, sign_roundPack, (isFraction_ofInt_of_le hk24).sign, hnsign]
    simp
  rcases ediv_emod_of_natAbs_lt hk hn0 with ⟨hneg, hq, -⟩ | ⟨hpos, hq, -⟩
  · have hne : ((ofInt k).div (ofInt n)).magnitude ≠ 0 := by
      refine magnitude_div_ne_zero hkfin hnfin hnz ?_ ?_
      · rw [absValue_ofInt hk24]
        exact_mod_cast (by omega : 1 ≤ k.natAbs)
      · rw [absValue_ofInt hn]
        exact_mod_cast hn'
    have habs := hnonneg.lt_of_ne' ((absValue_eq_zero _).not.2 hne)
    have hvalue : ((ofInt k).div (ofInt n)).value = -((ofInt k).div (ofInt n)).absValue := by
      rw [NUM.value, hsign, decide_eq_true hneg, if_pos rfl]
    rw [hq]
    exact floor_eq_of_value hfin (by rw [hvalue]; push_cast; linarith) (by rw [hvalue]; push_cast; linarith)
  · have hvalue := value_eq_absValue (value_nonneg_of_sign (hsign.trans (decide_eq_false (not_lt.2 hpos))))
    rw [hq]
    exact floor_eq_of_value hfin (by rw [hvalue]; push_cast; linarith) (by rw [hvalue]; push_cast; linarith)

/-- The product of a size with 0 or −1. -/
theorem ofInt_mul_ofInt {n f : Int} (hn : n.natAbs ≤ 2 ^ 24) (hn0 : 0 < n) (hf : f = -1 ∨ f = 0) :
    (ofInt n).mul (ofInt f) = ofInt (n * f) := by
  have hprod : (n * f).natAbs ≤ 2 ^ 24 := by
    rcases hf with rfl | rfl
    · simpa using hn
    · simp
  have hf24 : f.natAbs ≤ 2 ^ 24 := by omega
  have hx := isFraction_ofInt_of_le hn
  have hy := isFraction_ofInt_of_le hf24
  have hz := isFraction_ofInt_of_le hprod
  refine mul_exact hx.finite hy.finite hz.finite ?_ ?_
  · rw [absValue_ofInt hn, absValue_ofInt hf24, absValue_ofInt hprod, Int.natAbs_mul]
    push_cast
    rfl
  · rw [hx.sign, hy.sign, hz.sign]
    rcases hf with rfl | rfl
    · simp [hn0, hn0.le]
    · simp [hn0.le]

/-- R12: `mod` of an integer below the size in magnitude is exact. -/
theorem modInt_ofInt {k n : Int} (hk : k.natAbs < n.natAbs) (hn0 : 0 < n) (hn : n.natAbs ≤ 2 ^ 24) :
    Num.binary32.modInt (ofInt k) n = ofInt (k % n) := by
  have hprod : n * (k / n) = k - k % n := eq_sub_of_add_eq (Int.mul_ediv_add_emod k n)
  obtain ⟨hfactor, hbound, hrem⟩ :
      (k / n = -1 ∨ k / n = 0) ∧ (k - k % n).natAbs ≤ 2 ^ 24 ∧ (k - (k - k % n)).natAbs ≤ 2 ^ 24 := by
    rw [sub_sub_cancel]
    rcases ediv_emod_of_natAbs_lt hk hn0 with ⟨hneg, hq, hr⟩ | ⟨hpos, hq, hr⟩
    · exact ⟨.inl hq, by omega, by omega⟩
    · exact ⟨.inr hq, by omega, by omega⟩
  simp only [Num.modInt, binary32_sub, binary32_mul, binary32_ofInt, binary32_floor, binary32_div]
  rw [floor_ofInt_div_ofInt hk hn0 hn, ofInt_mul_ofInt hn hn0 hfactor, hprod,
    ofInt_sub_ofInt (hk.le.trans hn) hbound hrem, sub_sub_cancel]

theorem circularDistance_ofInt {size w j : Nat} (hsize : size ≤ 2 ^ 24) (hw : w < size) (hj : j < size) :
    circularDistance Num.binary32 size w (ofInt j) = ofInt (((w : Int) - j) % size) := by
  simp only [circularDistance, binary32_sub, binary32_ofInt]
  rw [ofInt_sub_ofInt (by omega) (by omega) (by omega), modInt_ofInt (by omega) (by omega) (by omega)]

/-- R158: the distance of an anchored read cursor. -/
theorem circularDistance_anchor {size w minGap : Nat} (hsize : size ≤ 2 ^ 24) (hw : w < size) (hgap : minGap < size) :
    circularDistance Num.binary32 size w (anchor Num.binary32 size w minGap) = ofInt minGap := by
  have hback : ((cursorBack size w minGap : Nat) : Int) = ((w : Int) - minGap) % size :=
    Int.toNat_of_nonneg (Int.emod_nonneg _ (by omega))
  simp only [anchor, binary32_ofInt]
  rw [circularDistance_ofInt hsize hw (cursorBack_lt w minGap (by omega)), hback, Int.sub_emod,
    Int.emod_emod, ← Int.sub_emod, sub_sub_cancel, Int.emod_eq_of_lt (by omega) (by omega)]

/-- The distance to a finite read cursor in range is no NaN, so that the drift check decides. -/
theorem isNaN_circularDistance {size w : Nat} {r : NUM} (hsize : size ≤ 2 ^ 24) (hw : w < size)
    (hr : r.isFinite = true) (h0 : 0 ≤ r.value) (h1 : r.value ≤ size) :
    (circularDistance Num.binary32 size w r).isNaN = false := by
  have hsize' : (size : Int).natAbs ≤ 2 ^ 24 := by omega
  have hw' : (w : ℚ) ≤ size := by exact_mod_cast hw.le
  have hw0 : (0 : ℚ) ≤ w := by positivity
  have hsub := (sub_le_of_le (isFinite_ofInt (i := w) (by omega)) hr (c := ofInt size) (by
    rw [value_ofInt (by omega), absValue_ofInt hsize', abs_le, Int.natAbs_natCast, Int.cast_natCast]
    constructor <;> linarith)).1
  obtain ⟨-, hnz, -⟩ := ofInt_of_pos (n := size) (by omega)
  exact isNaN_sub (isFinite_of_magnitude_le (isFinite_ofInt hsize') hsub)
    (isNaN_mul (isFinite_ofInt hsize') hnz (isNaN_ofInt _))

/-! ## Clamping -/

theorem inRange_iff {lo hi v : NUM} : inRange lo hi v = true ↔ lo.le v = true ∧ v.le hi = true :=
  Bool.and_eq_true_iff

/-- What is no NaN is clamped into the range. -/
theorem inRange_clamp {lo hi v : NUM} (h : lo.le hi = true) (hv : v.isNaN = false) :
    inRange lo hi (Num.binary32.clamp v lo hi) = true := by
  obtain ⟨hlo, hhi⟩ := isNaN_of_le h
  rw [inRange_iff]
  unfold Num.clamp
  split
  · exact ⟨le_self hlo, h⟩
  · next h1 =>
    split
    · exact ⟨h, le_self hhi⟩
    · next h2 =>
      exact ⟨le_of_not_lt hv hlo (Bool.eq_false_of_not_eq_true h1),
        le_of_not_lt hhi hv (Bool.eq_false_of_not_eq_true h2)⟩

theorem isFinite_of_inRange {lo hi v : NUM} (hlo : lo.isFinite = true) (hhi : hi.isFinite = true)
    (h : inRange lo hi v = true) : v.isFinite = true := by
  obtain ⟨h1, h2⟩ := inRange_iff.1 h
  exact isFinite_of_between hlo hhi h1 h2

theorem isNaN_abs (x : NUM) : x.abs.isNaN = x.isNaN := by
  have hmag : x.abs.magnitude = x.magnitude := by
    have hand : x.abs.bits.toNat = x.bits.toNat &&& 2 ^ 31 - 1 := BitVec.toNat_and ..
    rw [magnitude_eq, magnitude_eq, hand, Nat.and_two_pow_sub_one_eq_mod, Nat.mod_mod]
  rw [isNaN, isNaN, hmag]

/-- A NaN ratio stays a NaN under the clamp and does not pass the comparison with the dead-band. -/
theorem outsideDeadband_of_isNaN {ratio : NUM} (h : ratio.isNaN = true) :
    outsideDeadband theParams (theParams.clamp ratio theParams.pitchMin theParams.pitchMax) = false := by
  have hclamp : theParams.clamp ratio theParams.pitchMin theParams.pitchMax = ratio := by
    simp [Num.clamp, NUM.lt, h]
  rw [hclamp]
  simp [outsideDeadband, NUM.lt, NUM.sub, isNaN_abs, h]

/-- R157: outside the dead-band the clamped ratio is a value from 0.5 to 2. -/
theorem clamped_ratio_bounds {ratio rc : NUM} (hrc : theParams.clamp ratio theParams.pitchMin theParams.pitchMax = rc)
    (h : outsideDeadband theParams rc = true) : rc.isFinite = true ∧ 0 ≤ rc.value ∧ rc.value ≤ 2 := by
  have hnan : ratio.isNaN = false := by
    rw [Bool.eq_false_iff]
    intro hnan
    rw [← hrc, outsideDeadband_of_isNaN hnan] at h
    cases h
  have hrange : inRange ⟨0x3F000000#32⟩ ⟨0x40000000#32⟩ rc = true := by
    rw [← hrc, theParams_toNum, theParams_pitchMin, theParams_pitchMax]
    exact inRange_clamp (by decide +kernel) hnan
  have hfin := isFinite_of_inRange (by decide) (by decide) hrange
  obtain ⟨hlo, hhi⟩ := inRange_iff.1 hrange
  rw [le_eq_decide (by decide) hfin, decide_eq_true_eq] at hlo
  rw [le_eq_decide hfin (by decide), decide_eq_true_eq] at hhi
  have htwo : (⟨0x40000000#32⟩ : NUM) = ofInt 2 := by decide +kernel
  refine ⟨hfin, (value_nonneg_of_sign (by decide)).trans hlo, ?_⟩
  simpa [htwo, value_ofInt (i := 2) (by decide)] using hhi

/-! ## The read cursor -/

theorem PitchShifter.cursorOk_iff {ps : PitchShifter} (hsize : ps.size ≤ 2 ^ 24) :
    ps.cursorOk = true ↔ ps.r.isFinite = true ∧ 0 ≤ ps.r.value ∧ ps.r.value < ps.size := by
  have hz := isFraction_zero
  have hs := isFinite_ofInt (i := ps.size) (by omega)
  have hz0 : NUM.zero.value = 0 := by simpa using hz.value
  have horder (hr : ps.r.isFinite = true) : ps.cursorOk = true ↔ 0 ≤ ps.r.value ∧ ps.r.value < ps.size := by
    rw [PitchShifter.cursorOk, le_eq_decide hz.finite hr, lt_eq_decide hr hs, value_ofInt (by omega), hz0]
    simp
  constructor
  · intro h
    obtain ⟨h1, h2⟩ := Bool.and_eq_true_iff.1 h
    have hle : ps.r.le (ofInt ps.size) = true := by
      simp only [NUM.lt, NUM.le, Bool.and_eq_true, decide_eq_true_eq] at h2 ⊢
      exact ⟨h2.1, h2.2.le⟩
    have hr := isFinite_of_between hz.finite hs h1 hle
    exact ⟨hr, (horder hr).1 h⟩
  · rintro ⟨hr, h⟩
    exact (horder hr).2 h

/-- The place of the read cursor (R30): in range and, where the band is not empty (R161), in the band. -/
def PitchShifter.Placed (ps : PitchShifter) : Prop := ps.cursorOk = true ∧ (128 ≤ ps.size → ps.inBand = true)

theorem PitchShifter.ok_iff (ps : PitchShifter) :
    ps.ok = true ↔ 2 ≤ ps.size ∧ ps.minGap = max 64 (2 * ps.size / 5) ∧ ps.w < ps.size ∧
      (ps.size ≤ 2 ^ 24 → ps.Placed) := by
  simp only [PitchShifter.ok, PitchShifter.Placed, Bool.and_eq_true, Bool.or_eq_true, decide_eq_true_eq, and_assoc,
    ← not_le (b := 2 ^ 24), ← not_le (b := ps.size), ← imp_iff_not_or]

/-- An anchored read cursor is in place (R158). -/
theorem PitchShifter.placed_of_anchored {ps : PitchShifter} (hsize : ps.size ≤ 2 ^ 24) (hw : ps.w < ps.size)
    (hgap : ps.minGap = max 64 (2 * ps.size / 5)) (hr : ps.r = anchor Num.binary32 ps.size ps.w ps.minGap) :
    ps.Placed := by
  have hback := cursorBack_lt ps.w ps.minGap (by omega : 0 < ps.size)
  constructor
  · rw [PitchShifter.cursorOk_iff hsize, hr, anchor, binary32_ofInt, value_ofInt (by omega)]
    exact ⟨isFinite_ofInt (by omega), by positivity, by exact_mod_cast hback⟩
  · intro h128
    rw [PitchShifter.inBand, inRange_iff, hr, circularDistance_anchor hsize hw (by omega)]
    exact ⟨le_self (isNaN_ofInt _), by rw [le_ofInt (by omega) (by omega), decide_eq_true_eq]; omega⟩

section

variable {size b : Nat} {r rc : NUM} (hsize : size ≤ 2 ^ 24) (hr : r.isFinite = true) (hr0 : 0 ≤ r.value)
  (hr1 : r.value < size) (hrc : rc.isFinite = true) (hrc0 : 0 ≤ rc.value) (hrc2 : rc.value ≤ 2)

include hsize hr hr0 hr1 hrc hrc0 hrc2

/-- A read cursor in range after its advance, bounded by a number `b`: binary32 holds `2·b`, but not every
`size + 2`. -/
theorem readAdvance_bounds (hb24 : b < 2 ^ 24) (hb : size + 2 ≤ 2 * b) (hbs : b ≤ size) :
    (readAdvance Num.binary32 size r rc).isFinite = true ∧ 0 ≤ (readAdvance Num.binary32 size r rc).value ∧
      ((readAdvance Num.binary32 size r rc).value < size ∨
        (readAdvance Num.binary32 size r rc).value ≤ (2 * b - size : Nat)) := by
  obtain ⟨c, hc, -, hv⟩ := exists_absValue_eq false hb24 (e := 1) (by decide) (by decide)
  have hb' : (size : ℚ) + 2 ≤ 2 * b := by exact_mod_cast hb
  obtain ⟨hfin, h0, h1⟩ := add_between hr hrc hc (by linarith) (by rw [hv, zpow_one]; linarith)
  rw [hv, zpow_one] at h1
  have hs := isFinite_ofInt (i := size) (by omega)
  have hsv := value_ofInt (i := size) (by omega)
  simp only [readAdvance, binary32_add, binary32_le, binary32_sub, binary32_ofInt, le_eq_decide hs hfin, hsv,
    decide_eq_true_eq, Int.cast_natCast]
  split
  case isTrue hge =>
    have hwrap : (2 * b - size : Nat) = (2 * b - size : ℚ) := by
      rw [Nat.cast_sub (by omega)]
      push_cast
      rfl
    have hbound := absValue_ofInt (i := (2 * b - size : Nat)) (by omega)
    rw [Int.natAbs_natCast] at hbound
    obtain ⟨hfin', h0', h1'⟩ := sub_between hfin hs (isFinite_ofInt (i := (2 * b - size : Nat)) (by omega))
      (by rw [hsv]; push_cast; linarith) (by rw [hsv, hbound, hwrap]; push_cast; linarith)
    exact ⟨hfin', h0', .inr (hbound ▸ h1')⟩
  case isFalse hlt => exact ⟨hfin, h0, .inl (not_le.1 hlt)⟩

/-- R157: a read cursor in range that advances stays finite and, but for a tiny size, in range. -/
theorem readAdvance_inRange (h2 : 2 ≤ size) :
    (readAdvance Num.binary32 size r rc).isFinite = true ∧ 0 ≤ (readAdvance Num.binary32 size r rc).value ∧
      (readAdvance Num.binary32 size r rc).value ≤ size ∧
      (128 ≤ size → (readAdvance Num.binary32 size r rc).value < size) := by
  have hbounds (b : Nat) := readAdvance_bounds (b := b) hsize hr hr0 hr1 hrc hrc0 hrc2
  rcases le_or_gt 128 size with hlarge | hsmall
  · obtain ⟨hfin, h0, h1⟩ := hbounds (size - 1) (by omega) (by omega) (by omega)
    have hwrap : ((2 * (size - 1) - size : Nat) : ℚ) < size := by
      exact_mod_cast (by omega : 2 * (size - 1) - size < size)
    have hlt := h1.elim id fun h => h.trans_lt hwrap
    exact ⟨hfin, h0, hlt.le, fun _ => hlt⟩
  · obtain ⟨hfin, h0, h1⟩ := hbounds size (by omega) (by omega) le_rfl
    have hwrap : ((2 * size - size : Nat) : ℚ) = size := by rw [two_mul, Nat.add_sub_cancel]
    exact ⟨hfin, h0, h1.elim le_of_lt fun h => hwrap ▸ h, fun h128 => absurd h128 (by omega)⟩

end

theorem driftChecked_cases (size minGap w : Nat) (r : NUM) :
    driftChecked Num.binary32 size minGap w r = anchor Num.binary32 size w minGap ∨
      (driftChecked Num.binary32 size minGap w r = r ∧
        (circularDistance Num.binary32 size w r).lt (ofInt minGap) = false ∧
        (ofInt ((size : Int) - minGap)).lt (circularDistance Num.binary32 size w r) = false) := by
  unfold driftChecked
  dsimp only
  split
  case isTrue => exact .inl rfl
  case isFalse h => exact .inr ⟨rfl, by simpa using h⟩

/-- The drift check puts the read cursor in place (R160): it keeps one in the band and re-anchors every other. -/
theorem PitchShifter.placed_of_driftChecked {ps : PitchShifter} {r : NUM} (hsize : ps.size ≤ 2 ^ 24)
    (hw : ps.w < ps.size) (hgap : ps.minGap = max 64 (2 * ps.size / 5)) (hfin : r.isFinite = true) (h0 : 0 ≤ r.value)
    (h1 : r.value ≤ ps.size) (h128 : 128 ≤ ps.size → r.value < ps.size)
    (hr : ps.r = driftChecked Num.binary32 ps.size ps.minGap ps.w r) : ps.Placed := by
  have hnan := isNaN_circularDistance hsize hw hfin h0 h1
  rcases driftChecked_cases ps.size ps.minGap ps.w r with hanchor | ⟨hkept, hlt, hgt⟩
  · exact placed_of_anchored hsize hw hgap (hr.trans hanchor)
  · have hlo := le_of_not_lt hnan (isNaN_ofInt _) hlt
    have hhi := le_of_not_lt (isNaN_ofInt _) hnan hgt
    have hband : (ps.minGap : Int) ≤ ps.size - ps.minGap := by
      have := le_le_trans hlo hhi
      rwa [le_ofInt (by omega) (by omega), decide_eq_true_eq] at this
    rw [← hkept, ← hr] at hlo hhi hfin h0 h128
    exact ⟨(cursorOk_iff hsize).2 ⟨hfin, h0, h128 (by omega)⟩, fun _ => inRange_iff.2 ⟨hlo, hhi⟩⟩

/-! ## Creation and one sample -/

theorem PitchShifter.created_ok {sr : Int} (hsr : 0 < sr) : (PitchShifter.created theParams sr).ok = true := by
  have hsize : (PitchShifter.created theParams sr).size = 2 * sr.toNat := rfl
  have hw : (PitchShifter.created theParams sr).w = 0 := rfl
  exact (ok_iff _).2 ⟨by omega, rfl, by omega, fun h24 => placed_of_anchored h24 (by omega) rfl rfl⟩

/-- R160: a sample keeps the shifter in order, whatever the input and the ratio. -/
theorem PitchShifter.process_keeps_ok {ps ps' : PitchShifter} {x ratio y : NUM} (h : ps.ok = true)
    (hp : ps.process theParams x ratio = .ok (ps', y)) : ps'.ok = true := by
  obtain ⟨h2, hgap, hw, hplaced⟩ := (ok_iff ps).1 h
  have hnext := cursorNext_lt ps.w (by omega : 0 < ps.size)
  cases hd : outsideDeadband theParams (theParams.clamp ratio theParams.pitchMin theParams.pitchMax) with
  | false =>
    rw [process_inside hw hd] at hp
    cases hp
    exact (ok_iff _).2 ⟨h2, hgap, hnext, fun h24 => placed_of_anchored h24 hnext hgap rfl⟩
  | true =>
    obtain ⟨_, -, heq⟩ := process_outside (x := x) hw hd
    rw [heq] at hp
    cases hp
    refine (ok_iff _).2 ⟨h2, hgap, hnext, fun h24 => ?_⟩
    replace h24 : ps.size ≤ 2 ^ 24 := h24
    obtain ⟨hfin, h0, h1⟩ := (cursorOk_iff h24).1 (hplaced h24).1
    obtain ⟨hrc, hrc0, hrc2⟩ := clamped_ratio_bounds rfl hd
    obtain ⟨hfin', h0', h1', h128⟩ := readAdvance_inRange h24 hfin h0 h1 hrc hrc0 hrc2 h2
    exact placed_of_driftChecked h24 hnext hgap hfin' h0' h1' h128 rfl

end Sys2Proof.Machine
end

section
/-! PROOFS. The invariant of the machine (spec/10_state.md R23 to R37), unit by unit: each unit's operations keep its
buffer canonical and its integers in order, each stage of a sample keeps every unit so, and with them every step. -/

namespace Sys2Proof.Machine

open Sys2Proof NUM

/-! ## Arrays of units -/

theorem get_vector_set {α : Type} {n : Nat} (v : Vector α n) (i j : Fin n) (x : α) :
    (v.set i x).get j = if i = j then x else v.get j := by
  simp [Vector.get_eq_getElem, Vector.getElem_set, Fin.ext_iff]

theorem all_iff_get {α : Type} {n : Nat} {v : Vector α n} {q : α → Bool} :
    v.all q = true ↔ ∀ i : Fin n, q (v.get i) = true := by
  simp [Vector.all_eq_true, Fin.forall_iff, Vector.get_eq_getElem]

/-- A property of every element is kept by putting an element with it in. -/
theorem forall_get_set {α : Type} {n : Nat} {P : α → Prop} {v : Vector α n} {i : Fin n} {x : α}
    (hv : ∀ j, P (v.get j)) (hx : P x) : ∀ j, P ((v.set i x).get j) := by
  intro j
  rw [get_vector_set]
  split
  · exact hx
  · exact hv j

theorem forall_get_three {α : Type} {P : α → Prop} {a b c : α} (ha : P a) (hb : P b) (hc : P c) :
    ∀ k : Fin 3, P (#v[a, b, c].get k)
  | 0 => ha
  | 1 => hb
  | 2 => hc

/-! ## The invariant by its parts -/

/-- The buffer is canonical and, once initialised, the shifter is in order. -/
structure PitchShifter.Good (ps : PitchShifter) : Prop where
  memory : ps.buf.wf NUM.zero ps.size = true
  ok : ps.init = true → ps.ok = true

/-- The buffer is canonical and, once initialised, the comb's cursor is in it. -/
structure Comb.Good (c : Comb) : Prop where
  memory : c.buf.wf NUM.zero c.len = true
  ok : c.init = true → c.ok = true

/-- The buffer is canonical and, once initialised, the echo line is in order. -/
structure Echo.Good (ec : Echo) : Prop where
  memory : ec.buf.wf NUM.zero ec.len = true
  ok : ec.init = true → ec.ok = true

/-- The units with a buffer are good. -/
structure State.GoodUnits (s : State) : Prop where
  ps : s.ps.Good
  cb : ∀ k : Fin 3, (s.cb.get k).Good
  ec : s.ec.Good

/-- Every unit is initialised, and the voice modulator runs at the rate of the stream (R24, R37). -/
structure State.Ready (s : State) : Prop where
  bq : ∀ u : Fin 9, (s.bq.get u).init = true
  ps : s.ps.init = true
  cb : ∀ k : Fin 3, (s.cb.get k).init = true
  ec : s.ec.init = true
  pc : s.pc.init = true
  vm : s.vm.init = true
  rate : s.vm.sr = s.sr

theorem State.runningOk_iff (s : State) :
    s.runningOk = true ↔ s.Ready ∧ 1 ≤ s.sr ∧ s.act.inDomain = true := by
  simp only [State.runningOk, State.allInit, combsInit, Bool.and_eq_true, decide_eq_true_eq, all_iff_get]
  constructor
  · rintro ⟨⟨⟨⟨⟨⟨⟨⟨hbq, hps⟩, hcb⟩, hec⟩, hpc⟩, hvm⟩, hsr⟩, hrate⟩, hact⟩
    exact ⟨⟨hbq, hps, hcb, hec, hpc, hvm, hrate⟩, hsr, hact⟩
  · rintro ⟨⟨hbq, hps, hcb, hec, hpc, hvm, hrate⟩, hsr, hact⟩
    exact ⟨⟨⟨⟨⟨⟨⟨⟨hbq, hps⟩, hcb⟩, hec⟩, hpc⟩, hvm⟩, hsr⟩, hrate⟩, hact⟩

theorem State.inv_iff (s : State) :
    s.Inv ↔ s.run ≠ .starting ∧ s.snap.inDomain = true ∧ s.GoodUnits ∧
      (s.run = .running → s.Ready ∧ 1 ≤ s.sr ∧ s.act.inDomain = true) := by
  unfold State.Inv
  simp only [State.memoryWf, Bool.and_eq_true, all_iff_get, ← State.runningOk_iff]
  constructor
  · rintro ⟨hrun, hsnap, ⟨⟨mps, mcb⟩, mec⟩, hps, hcb, hec, hrunning⟩
    exact ⟨hrun, hsnap, ⟨⟨mps, hps⟩, fun k => ⟨mcb k, hcb k⟩, ⟨mec, hec⟩⟩, hrunning⟩
  · rintro ⟨hrun, hsnap, ⟨hps, hcb, hec⟩, hrunning⟩
    exact ⟨hrun, hsnap, ⟨⟨hps.memory, fun k => (hcb k).memory⟩, hec.memory⟩, hps.ok, fun k => (hcb k).ok, hec.ok,
      hrunning⟩

/-! ## The pitch shifter -/

theorem PitchShifter.Good.none : (PitchShifter.none Num.binary32).Good := ⟨rfl, nofun⟩

theorem PitchShifter.Good.created {sr : Int} (hsr : 0 < sr) : (PitchShifter.created theParams sr).Good :=
  ⟨rfl, fun _ => created_ok hsr⟩

theorem PitchShifter.Good.process {ps ps' : PitchShifter} {x ratio y : NUM} (h : ps.Good)
    (hp : ps.process theParams x ratio = .ok (ps', y)) : ps'.Good ∧ ps'.init = ps.init := by
  obtain ⟨hw, r, hps'⟩ := process_ok hp
  have hinit : ps'.init = ps.init := by rw [hps']
  refine ⟨⟨?_, fun hi => process_keeps_ok (h.ok (hinit ▸ hi)) hp⟩, hinit⟩
  rw [hps']
  exact Memory.write_wf h.memory hw

/-! ## The combs -/

theorem Comb.ok_iff (c : Comb) : c.ok = true ↔ 1 ≤ c.len ∧ c.cur < c.len := by
  simp [Comb.ok]

theorem Comb.Good.none : (Comb.none Num.binary32).Good := ⟨rfl, nofun⟩

theorem Comb.Good.created {len : Nat} (hlen : 0 < len) (fb : NUM) : (Comb.created len fb).Good :=
  ⟨rfl, fun _ => (Comb.ok_iff _).2 ⟨hlen, hlen⟩⟩

theorem Comb.Good.process {c c' : Comb} {x y : NUM} (h : c.Good) (hp : c.process Num.binary32 x = .ok (c', y)) :
    c'.Good ∧ c'.init = c.init := by
  obtain ⟨hcur, -, rfl⟩ := Comb.process_ok.1 hp
  have hpos : 0 < c.len := Nat.zero_lt_of_lt hcur
  exact ⟨⟨Memory.write_wf h.memory hcur, fun _ => (Comb.ok_iff _).2 ⟨hpos, cursorNext_lt _ hpos⟩⟩, rfl⟩

theorem combsCreated_good (sr : Int) :
    ∀ k : Fin 3, ((combsCreated theParams sr).get k).Good ∧ ((combsCreated theParams sr).get k).init = true := by
  have hlen (k : Fin 3) : 1 ≤ combLength theParams k sr := Nat.le_max_left ..
  exact forall_get_three (P := fun c : Comb => c.Good ∧ c.init = true) ⟨.created (hlen 0) _, rfl⟩
    ⟨.created (hlen 1) _, rfl⟩ ⟨.created (hlen 2) _, rfl⟩

theorem combsStepped_good {cb cb' : Vector Comb 3} {x m : NUM} (h : ∀ k : Fin 3, (cb.get k).Good)
    (hs : combsStepped Num.binary32 cb x = .ok (cb', m)) :
    (∀ k : Fin 3, (cb'.get k).Good) ∧
      ((∀ k : Fin 3, (cb.get k).init = true) → ∀ k : Fin 3, (cb'.get k).init = true) := by
  obtain ⟨c0, c1, c2, o0, o1, o2, h0, h1, h2, rfl, -⟩ := combsStepped_ok.1 hs
  obtain ⟨g0, i0⟩ := (h 0).process h0
  obtain ⟨g1, i1⟩ := (h 1).process h1
  obtain ⟨g2, i2⟩ := (h 2).process h2
  exact ⟨forall_get_three g0 g1 g2, fun hi =>
    forall_get_three (P := fun c : Comb => c.init = true) (i0.trans (hi 0)) (i1.trans (hi 1)) (i2.trans (hi 2))⟩

/-- RV.PROC steps the three combs or leaves them. -/
theorem reverbProcess_combs {cb cb' : Vector Comb 3} {x wet y : NUM}
    (h : reverbProcess theParams cb x wet = .ok (cb', y)) :
    cb' = cb ∨ ∃ m, combsStepped Num.binary32 cb x = .ok (cb', m) := by
  unfold reverbProcess at h
  dsimp only at h
  rw [theParams_rvStepWhenDry] at h
  split at h
  · cases h
    exact .inl rfl
  · split at h
    · next cb'' m hs =>
      cases h
      exact .inr ⟨m, hs⟩
    · cases h

theorem reverbProcess_good {cb cb' : Vector Comb 3} {x wet y : NUM} (h : ∀ k : Fin 3, (cb.get k).Good)
    (hp : reverbProcess theParams cb x wet = .ok (cb', y)) :
    (∀ k : Fin 3, (cb'.get k).Good) ∧
      ((∀ k : Fin 3, (cb.get k).init = true) → ∀ k : Fin 3, (cb'.get k).init = true) := by
  rcases reverbProcess_combs hp with rfl | ⟨m, hs⟩
  · exact ⟨h, id⟩
  · exact combsStepped_good h hs

/-! ## The echo line -/

theorem Echo.ok_iff (ec : Echo) :
    ec.ok = true ↔ ec.cur < ec.len ∧ ec.d < ec.len ∧ inRange NUM.zero NUM.one ec.mix = true ∧
      inRange NUM.zero ⟨0x3F733333#32⟩ ec.fb = true := by
  simp [Echo.ok, and_assoc]

theorem Echo.Good.none : (Echo.none Num.binary32).Good := ⟨rfl, nofun⟩

theorem Echo.created_ok {len : Nat} (hlen : 0 < len) : (Echo.created Num.binary32 len).ok = true :=
  (Echo.ok_iff _).2 ⟨hlen, hlen, (by decide : inRange NUM.zero NUM.one NUM.zero = true),
    (by decide : inRange NUM.zero ⟨0x3F733333#32⟩ NUM.zero = true)⟩

theorem Echo.Good.created {len : Nat} (hlen : 0 < len) : (Echo.created Num.binary32 len).Good :=
  ⟨rfl, fun _ => created_ok hlen⟩

theorem Echo.Good.process {ec ec' : Echo} {x y : NUM} (h : ec.Good) (hp : ec.process Num.binary32 x = .ok (ec', y)) :
    ec'.Good ∧ ec'.init = ec.init := by
  obtain ⟨⟨-, hcur⟩, -, rfl⟩ := Echo.process_ok.1 hp
  refine ⟨⟨Memory.write_wf h.memory hcur, fun hi => ?_⟩, rfl⟩
  obtain ⟨-, hd, hmix, hfb⟩ := (Echo.ok_iff ec).1 (h.ok hi)
  exact (Echo.ok_iff _).2 ⟨cursorNext_lt _ (Nat.zero_lt_of_lt hcur), hd, hmix, hfb⟩

/-- INV-EC (R190): EC.CFG gives the line room for the delay. -/
theorem Echo.Good.configured {ec : Echo} {d : Int} {mix fb : NUM} (h : ec.Good) (hi : ec.init = true)
    (hmix : mix.isNaN = false) (hfb : fb.isNaN = false) :
    (ec.configured theParams d mix fb).Good ∧ (ec.configured theParams d mix fb).init = true := by
  obtain ⟨hcur, -, -, -⟩ := (Echo.ok_iff ec).1 (h.ok hi)
  have hmix' : inRange NUM.zero NUM.one (theParams.clamp mix theParams.wetMin theParams.wetMax) = true :=
    inRange_clamp (by decide) hmix
  have hfb' : inRange NUM.zero ⟨0x3F733333#32⟩ (theParams.clamp fb theParams.zero theParams.echoFbMax) = true := by
    rw [theParams_echoFbMax]
    exact inRange_clamp (by decide) hfb
  unfold Echo.configured
  dsimp only
  split
  case isTrue =>
    have hroom : echoDelay theParams d < echoGrown theParams (echoDelay theParams d) := by
      simp only [echoGrown, theParams_echoMaxLen]
      omega
    exact ⟨⟨rfl, fun _ => (Echo.ok_iff _).2 ⟨Nat.zero_lt_of_lt hroom, hroom, hmix', hfb'⟩⟩, hi⟩
  case isFalse hroom =>
    exact ⟨⟨h.memory, fun _ => (Echo.ok_iff _).2 ⟨hcur, not_le.1 hroom, hmix', hfb'⟩⟩, hi⟩

/-! ## The snapshot and what DERIVE makes of it -/

/-- The domain of SNAP that DERIVE rests on (R25). -/
theorem Snapshot.inDomain_iff (n : Snapshot) :
    n.inDomain = true ↔
      (∀ e ∈ n.eq.toList, isI32 e.freq = true ∧ e.gainDb.isFinite = true) ∧
      inRange ⟨0x3F000000#32⟩ ⟨0x40000000#32⟩ n.pitchRatio = true ∧ (-12 ≤ n.formantShift ∧ n.formantShift ≤ 12) ∧
      inRange NUM.zero NUM.one n.reverbWet = true ∧ (0 ≤ n.echoDelayMs ∧ isI32 n.echoDelayMs = true) ∧
      inRange NUM.zero ⟨0x3F733333#32⟩ n.echoFeedback = true ∧ inRange NUM.zero NUM.one n.volume = true := by
  simp only [Snapshot.inDomain, Bool.and_eq_true, decide_eq_true_eq, List.all_eq_true, and_assoc]

theorem isI32_toInt (w : Word) : isI32 w.toInt = true := by
  have := BitVec.two_mul_toInt_lt (x := w)
  have := BitVec.le_two_mul_toInt (x := w)
  simp only [isI32, Bool.and_eq_true, decide_eq_true_eq]
  omega

theorem clampInt_bounds {v lo hi : Int} (h : lo ≤ hi) : lo ≤ clampInt v lo hi ∧ clampInt v lo hi ≤ hi := by
  unfold clampInt
  split
  · exact ⟨le_rfl, h⟩
  · split <;> omega

/-- R235: the published snapshot of finite operands is in its domain. -/
theorem clamped_inDomain {a : DspParameters} (ha : a.wf = true) : (clamped theParams a).inDomain = true := by
  simp only [DspParameters.wf, Bool.and_eq_true, List.all_eq_true, and_assoc] at ha
  obtain ⟨heq, hpitch, hwet, hfb, hvolume⟩ := ha
  have hclamp {lo hi v : NUM} (hv : v.isFinite = true) (h : lo.le hi = true) :
      inRange lo hi (theParams.clamp v lo hi) = true := inRange_clamp h (isNaN_of_finite hv)
  have hms : (clamped theParams a).echoDelayMs = max a.echoDelayMs.toInt 0 := rfl
  have hpr : (clamped theParams a).pitchRatio =
      theParams.clamp a.pitchRatio theParams.pitchMin theParams.pitchMax := rfl
  have hfr : (clamped theParams a).echoFeedback = theParams.clamp a.echoFeedback NUM.zero theParams.echoFbMax := rfl
  have hi32 := isI32_toInt a.echoDelayMs
  refine (Snapshot.inDomain_iff _).2 ⟨?_, ?_, clampInt_bounds (by decide), hclamp hwet (by decide), ?_, ?_,
    hclamp hvolume (by decide)⟩
  · intro e he
    obtain ⟨o, ho, rfl⟩ := List.mem_map.1 (Vector.toList_map ▸ he : e ∈ a.eq.toList.map (eqSlotOf theParams.toNum))
    exact ⟨isI32_toInt _, heq o ho⟩
  · rw [hpr, theParams_pitchMin, theParams_pitchMax]
    exact hclamp hpitch (by decide)
  · rw [hms]
    simp only [isI32, Bool.and_eq_true, decide_eq_true_eq] at hi32 ⊢
    omega
  · rw [hfr, theParams_echoFbMax]
    exact hclamp hfb (by decide)

/-- The columns of the preset table that DERIVE adds to (R201). -/
theorem presetRow_finite (v : Preset) :
    (presetRow theParams v).extraReverbWet.isFinite = true ∧ (presetRow theParams v).extraDelayMix.isFinite = true ∧
      (presetRow theParams v).extraDelayFeedback.isFinite = true := by
  cases v <;> simp only [presetRow, Preset.code, theParams_normal, theParams_child, theParams_funny, theParams_robot,
    theParams_deep, theParams_alien] <;> decide

theorem echoExplicitMix_finite : theParams.echoExplicitMix.isFinite = true := by
  rw [theParams_echoExplicitMix, echoExplicitMix]
  split
  case isTrue h => exact isFinite_of_inRange (by decide) (by decide) (inRange_iff.2 (Bool.and_eq_true_iff.1 h))
  case isFalse => decide

/-- A sum with a finite right operand is a NaN only where the left one is. -/
theorem isNaN_add_finite {a b : NUM} (ha : a.isNaN = false) (hb : b.isFinite = true) : (a.add b).isNaN = false :=
  isNaN_add ha (isNaN_of_finite hb) (.inr (isInf_of_finite hb))

theorem derivedWet_inRange {n : Snapshot} (hn : n.inDomain = true) :
    inRange NUM.zero NUM.one (derivedWet theParams n (presetRow theParams n.voicePreset)) = true := by
  obtain ⟨-, -, -, hwet, -⟩ := (Snapshot.inDomain_iff n).1 hn
  have hswitch : (if n.reverbEnabled then theParams.one else theParams.zero).isFinite = true := by
    cases n.reverbEnabled <;> decide
  exact inRange_clamp (by decide) (isNaN_add_finite
    (isNaN_mul_of_finite (isFinite_of_inRange (by decide) (by decide) hwet) hswitch)
    (presetRow_finite n.voicePreset).1)

/-- DERIVE keeps an initialised echo line good (R189, R190). -/
theorem derivedEcho_good {ec : Echo} {n : Snapshot} {sr : Int} (h : ec.Good) (hi : ec.init = true)
    (hn : n.inDomain = true) :
    (derivedEcho theParams ec n (presetRow theParams n.voicePreset) sr).Good ∧
      (derivedEcho theParams ec n (presetRow theParams n.voicePreset) sr).init = true := by
  obtain ⟨-, -, -, -, -, hfb, -⟩ := (Snapshot.inDomain_iff n).1 hn
  obtain ⟨-, hmix', hfb'⟩ := presetRow_finite n.voicePreset
  refine h.configured hi (isNaN_add_finite (isNaN_of_finite ?_) hmix') (isNaN_add_finite (isNaN_of_finite ?_) hfb')
  · split
    · exact echoExplicitMix_finite
    · decide
  · split
    · exact isFinite_of_inRange (by decide) (by decide) hfb
    · decide

/-! ## The biquads -/

theorem Biquad.peaking_init (p : Params) (f g q : NUM) (sr : Int) : (Biquad.peaking p f g q sr).init = true := by
  unfold Biquad.peaking
  dsimp only
  split <;> rfl

theorem Biquad.lowShelf_init (p : Params) (f g : NUM) (sr : Int) : (Biquad.lowShelf p f g sr).init = true := by
  unfold Biquad.lowShelf
  dsimp only
  split <;> rfl

theorem Biquad.highShelf_init (p : Params) (f g : NUM) (sr : Int) : (Biquad.highShelf p f g sr).init = true := by
  unfold Biquad.highShelf
  dsimp only
  split <;> rfl

theorem eqSlotBand_init (p : Params) (n : Snapshot) (sr : Int) (k : Fin 5) : (eqSlotBand p n sr k).init = true := by
  unfold eqSlotBand eqBand
  split
  · split
    · exact Biquad.peaking_init ..
    · rfl
  · rfl

/-- DERIVE leaves every section initialised (R147). -/
theorem derivedBank_init (p : Params) (n : Snapshot) (row : PresetRow) (sr : Int) :
    ∀ u : Fin 9, ((derivedBank p n row sr).get u).init = true
  | 0 => eqSlotBand_init p n sr 0
  | 1 => eqSlotBand_init p n sr 1
  | 2 => eqSlotBand_init p n sr 2
  | 3 => eqSlotBand_init p n sr 3
  | 4 => eqSlotBand_init p n sr 4
  | 5 => by
    change (formantLow p n.formantShift sr).init = true
    unfold formantLow
    split
    · exact Biquad.lowShelf_init ..
    · rfl
  | 6 => by
    change (formantHigh p n.formantShift sr).init = true
    unfold formantHigh
    split
    · exact Biquad.highShelf_init ..
    · rfl
  | 7 => by
    change (toneLow p row sr).init = true
    unfold toneLow
    split
    · exact Biquad.lowShelf_init ..
    · rfl
  | 8 => by
    change (toneHigh p row sr).init = true
    unfold toneHigh
    split
    · exact Biquad.highShelf_init ..
    · rfl

/-- A sample through some sections leaves the sections initialised. -/
theorem filters_init {us : List (Fin 9)} : ∀ {s : State} {v : NUM}, (∀ u : Fin 9, (s.bq.get u).init = true) →
    ∀ u : Fin 9, ((s.filters Num.binary32 us v).1.bq.get u).init = true := by
  induction us with
  | nil => exact fun h => h
  | cons u us ih =>
    intro s v h
    exact ih (s := (s.filter Num.binary32 u v).1) (forall_get_set (P := fun b : Biquad => b.init = true) h (h u))

/-! ## The voice modulator -/

theorem VoiceModulator.process_frame (vm : VoiceModulator) (row : PresetRow) (x : NUM) :
    (vm.process theParams row x).1.sr = vm.sr ∧ (vm.process theParams row x).1.init = vm.init := by
  have htremolo (v : NUM) : (vm.tremolo Num.binary32 row v).1.sr = vm.sr ∧
      (vm.tremolo Num.binary32 row v).1.init = vm.init := by
    unfold VoiceModulator.tremolo
    split <;> exact ⟨rfl, rfl⟩
  have hring (m : VoiceModulator) (v : NUM) : (m.ring Num.binary32 row v).1.sr = m.sr ∧
      (m.ring Num.binary32 row v).1.init = m.init := by
    unfold VoiceModulator.ring
    split <;> exact ⟨rfl, rfl⟩
  have hwarp (m : VoiceModulator) (v : NUM) : (m.warp theParams row v).1.sr = m.sr ∧
      (m.warp theParams row v).1.init = m.init := by
    unfold VoiceModulator.warp
    split <;> exact ⟨rfl, rfl⟩
  simp only [VoiceModulator.process, hwarp, hring, htremolo, theParams_toNum, and_self]

/-! ## One sample -/

/-- The units are good and ready: what every stage of a sample keeps. -/
structure Live (s : State) : Prop where
  good : s.GoodUnits
  ready : s.Ready

theorem Live.filters {s : State} (h : Live s) (us : List (Fin 9)) (v : NUM) :
    Live (s.filters Num.binary32 us v).1 := by
  have hinit := filters_init (us := us) (v := v) h.ready.bq
  rw [State.filters_frame]
  exact ⟨⟨h.good.ps, h.good.cb, h.good.ec⟩,
    ⟨hinit, h.ready.ps, h.ready.cb, h.ready.ec, h.ready.pc, h.ready.vm, h.ready.rate⟩⟩

theorem Live.eqStage {s : State} (h : Live s) (v : NUM) : Live (s.eqStage theParams v).1 := by
  unfold State.eqStage
  split
  · exact h.filters ..
  · exact h

theorem Live.shift {s t : State} (h : Live s) {x ratio y : NUM} (hs : s.shift theParams x ratio = .ok (t, y)) :
    Live t := by
  obtain ⟨ps, hps, rfl⟩ := State.shift_ok.1 hs
  obtain ⟨hgood, hinit⟩ := h.good.ps.process hps
  exact ⟨⟨hgood, h.good.cb, h.good.ec⟩,
    ⟨h.ready.bq, hinit.trans h.ready.ps, h.ready.cb, h.ready.ec, h.ready.pc, h.ready.vm, h.ready.rate⟩⟩

theorem Live.modulate {s : State} (h : Live s) (x : NUM) : Live (s.modulate theParams x).1 := by
  obtain ⟨hsr, hinit⟩ := s.vm.process_frame s.pc.row x
  exact ⟨⟨h.good.ps, h.good.cb, h.good.ec⟩,
    ⟨h.ready.bq, h.ready.ps, h.ready.cb, h.ready.ec, h.ready.pc, hinit.trans h.ready.vm, hsr.trans h.ready.rate⟩⟩

theorem Live.reverb {s t : State} (h : Live s) {x wet y : NUM} (hs : s.reverb theParams x wet = .ok (t, y)) :
    Live t := by
  obtain ⟨cb, hcb, rfl⟩ := State.reverb_ok.1 hs
  obtain ⟨hgood, hinit⟩ := reverbProcess_good h.good.cb hcb
  exact ⟨⟨h.good.ps, hgood, h.good.ec⟩,
    ⟨h.ready.bq, h.ready.ps, hinit h.ready.cb, h.ready.ec, h.ready.pc, h.ready.vm, h.ready.rate⟩⟩

theorem Live.echo {s t : State} (h : Live s) {x y : NUM} (hs : s.echo Num.binary32 x = .ok (t, y)) : Live t := by
  obtain ⟨ec, hec, rfl⟩ := State.echo_ok.1 hs
  obtain ⟨hgood, hinit⟩ := h.good.ec.process hec
  exact ⟨⟨h.good.ps, h.good.cb, hgood⟩,
    ⟨h.ready.bq, h.ready.ps, h.ready.cb, hinit.trans h.ready.ec, h.ready.pc, h.ready.vm, h.ready.rate⟩⟩

theorem Live.sample {s t : State} (h : Live s) {x q : Half} (hs : s.sample theParams x = .ok (t, q)) : Live t := by
  obtain ⟨e, f, s3, v3, m, v, s5, v5, s6, v6, rfl, rfl, h3, rfl, rfl, h5, h6, rfl, -⟩ := State.sample_ok hs
  have hshift := ((h.eqStage _).filters _ _).shift h3
  exact (((hshift.modulate _).filters _ _).reverb h5).echo h6

theorem Live.samples {xs : List Half} : ∀ {s t : State} {qs : List Half}, Live s →
    s.samples theParams xs = .ok (t, qs) → Live t := by
  induction xs with
  | nil =>
    intro s t qs h hs
    cases hs
    exact h
  | cons x xs ih =>
    intro s t qs h hs
    obtain ⟨u, q, qs', h1, h2, -⟩ := State.samples_cons_ok.1 hs
    exact ih (h.sample h1) h2

/-- DERIVE keeps the units of a stream good and initialised (R240). -/
theorem Live.derive {s : State} (hps : s.ps.Good ∧ s.ps.init = true)
    (hcb : ∀ k : Fin 3, (s.cb.get k).Good ∧ (s.cb.get k).init = true) (hec : s.ec.Good ∧ s.ec.init = true)
    (hvm : s.vm.init = true ∧ s.vm.sr = s.sr) (hn : s.snap.inDomain = true) : Live (s.derive theParams) := by
  obtain ⟨hgood, hinit⟩ := derivedEcho_good (sr := s.sr) hec.1 hec.2 hn
  exact ⟨⟨hps.1, fun k => (hcb k).1, hgood⟩,
    ⟨derivedBank_init _ _ _ _, hps.2, fun k => (hcb k).2, hinit, rfl, hvm.1, hvm.2⟩⟩

/-- DERIVE leaves the active parameters in their domain (R27). -/
theorem derive_act_inDomain {s : State} (hn : s.snap.inDomain = true) : (s.derive theParams).act.inDomain = true := by
  obtain ⟨-, hpitch, -, -, -, -, hvolume⟩ := (Snapshot.inDomain_iff _).1 hn
  simp only [Active.inDomain, State.derive_act, hpitch, hvolume, derivedWet_inRange hn, Bool.and_self]

end Sys2Proof.Machine
end

section
/-! PROOFS. Every operation, and with it every step of either agent and of what stands outside, keeps the invariant of
the machine (spec/10_state.md R23 to R37; spec/00_scope.md R8). -/

namespace Sys2Proof.Machine

open Sys2Proof NUM Sys2Proof.Claims

/-! ## The direct unit operations -/

theorem State.GoodUnits.complete {u t : State} (h : u.GoodUnits) (hc : complete u = .next t) : t.GoodUnits := by
  rw [complete_next.1 hc]
  exact ⟨h.ps, h.cb, h.ec⟩

theorem State.GoodUnits.completeValue {N : Num NUM} {r : Except Fault (State × NUM)} {t : State}
    (h : ∀ u y, r = .ok (u, y) → u.GoodUnits) (hc : completeValue N r = .next t) : t.GoodUnits := by
  obtain ⟨u, y, hr, rfl⟩ := completeValue_next.1 hc
  have hu := h u y hr
  exact ⟨hu.ps, hu.cb, hu.ec⟩

theorem State.GoodUnits.setCb {s : State} (h : s.GoodUnits) (k : Fin 3) {c : Comb} (hc : c.Good) :
    (s.setCb k c).GoodUnits :=
  ⟨h.ps, forall_get_set h.cb hc, h.ec⟩

theorem State.GoodUnits.shift {s t : State} (h : s.GoodUnits) {x ratio y : NUM}
    (hs : s.shift theParams x ratio = .ok (t, y)) : t.GoodUnits := by
  obtain ⟨ps, hps, rfl⟩ := State.shift_ok.1 hs
  exact ⟨(h.ps.process hps).1, h.cb, h.ec⟩

theorem State.GoodUnits.comb {s t : State} (h : s.GoodUnits) {k : Fin 3} {x y : NUM}
    (hs : s.comb Num.binary32 k x = .ok (t, y)) : t.GoodUnits := by
  obtain ⟨c, hc, rfl⟩ := State.comb_ok.1 hs
  exact h.setCb k ((h.cb k).process hc).1

theorem State.GoodUnits.reverb {s t : State} (h : s.GoodUnits) {x wet y : NUM}
    (hs : s.reverb theParams x wet = .ok (t, y)) : t.GoodUnits := by
  obtain ⟨cb, hcb, rfl⟩ := State.reverb_ok.1 hs
  exact ⟨h.ps, (reverbProcess_good h.cb hcb).1, h.ec⟩

theorem State.GoodUnits.echo {s t : State} (h : s.GoodUnits) {x y : NUM}
    (hs : s.echo Num.binary32 x = .ok (t, y)) : t.GoodUnits := by
  obtain ⟨ec, hec, rfl⟩ := State.echo_ok.1 hs
  exact ⟨h.ps, h.cb, (h.ec.process hec).1⟩

/-- A direct unit operation keeps the units good: it refuses, creates a good unit, or runs one sample through it. -/
theorem State.GoodUnits.unitOperation {i : Instr} {s t : State} (h : s.GoodUnits) (hi : isUnitOperation i = true)
    (he : execWith theParams i s = .next t) : t.GoodUnits := by
  have hguard {checks : List (Bool × Status)} {act : Result} (hg : s.guarded checks act = .next t)
      (hact : (∀ c ∈ checks, c.1 = true) → act = .next t → t.GoodUnits) : t.GoodUnits :=
    State.guarded_induction hg (fun _ => ⟨h.ps, h.cb, h.ec⟩) hact
  cases i with
  | start ok sr => cases hi
  | stop => cases hi
  | apply a => cases hi
  | frame n ss => cases hi
  | bqByp u => exact hguard he fun _ => GoodUnits.complete ⟨h.ps, h.cb, h.ec⟩
  | bqPeak u f g q sr => exact hguard he fun _ => GoodUnits.complete ⟨h.ps, h.cb, h.ec⟩
  | bqLsh u f g sr => exact hguard he fun _ => GoodUnits.complete ⟨h.ps, h.cb, h.ec⟩
  | bqHsh u f g sr => exact hguard he fun _ => GoodUnits.complete ⟨h.ps, h.cb, h.ec⟩
  | bqProc u x => exact hguard he fun _ => GoodUnits.completeValue fun _ _ hr => by cases hr; exact ⟨h.ps, h.cb, h.ec⟩
  | psInit sr =>
    refine hguard he fun hpass => GoodUnits.complete ⟨.created ?_, h.cb, h.ec⟩
    exact of_decide_eq_true (hpass (rangeCheck (decide (0 < i32 sr))) (by simp))
  | psProc x ratio => exact hguard he fun _ => GoodUnits.completeValue fun _ _ => h.shift
  | cbInit u len fb =>
    refine hguard he fun hpass => (h.setCb _ (.created ?_ _)).complete
    have hrange := hpass (rangeCheck (decide (u.toNat < 3) && decide (0 < i32 len))) (by simp)
    have hlen := of_decide_eq_true (Bool.and_eq_true_iff.1 hrange).2
    omega
  | cbProc u x => exact hguard he fun _ => GoodUnits.completeValue fun _ _ => h.comb
  | rvInit sr => exact hguard he fun _ => GoodUnits.complete ⟨h.ps, fun k => (combsCreated_good _ k).1, h.ec⟩
  | rvProc x wet => exact hguard he fun _ => GoodUnits.completeValue fun _ _ => h.reverb
  | ecInit len =>
    refine hguard he fun hpass => GoodUnits.complete ⟨h.ps, h.cb, .created ?_⟩
    have hrange := hpass (rangeCheck (decide (0 < i32 len) && theParams.echoMaxLen.all fun m => decide (i32 len ≤ m)))
      (by simp)
    have hlen := of_decide_eq_true (Bool.and_eq_true_iff.1 hrange).1
    omega
  | ecCfg d mix fb =>
    refine hguard he fun hpass => GoodUnits.complete ⟨h.ps, h.cb, ?_⟩
    have hfinite := hpass (finiteCheck [mix, fb]) (by simp)
    have hinit := hpass (initCheck s.ec.init) (by simp)
    simp only [finiteCheck, List.all_cons, List.all_nil, Bool.and_true, Bool.and_eq_true] at hfinite
    exact (h.ec.configured hinit (isNaN_of_finite hfinite.1) (isNaN_of_finite hfinite.2)).1
  | ecProc x => exact hguard he fun _ => GoodUnits.completeValue fun _ _ => h.echo
  | vpLoad v => exact hguard he fun _ => GoodUnits.complete ⟨h.ps, h.cb, h.ec⟩
  | vmInit sr => exact hguard he fun _ => GoodUnits.complete ⟨h.ps, h.cb, h.ec⟩
  | vmProc x => exact hguard he fun _ => GoodUnits.completeValue fun _ _ hr => by cases hr; exact ⟨h.ps, h.cb, h.ec⟩
  | lmFrame ss => exact hguard he fun _ => GoodUnits.completeValue fun _ _ hr => by cases hr; exact h

/-! ## START, STOP and FRAME -/

/-- A running state is good when its units are live and its parameters are in their domains. -/
theorem State.inv_of_live {s : State} (hrun : s.run = .running) (hn : s.snap.inDomain = true) (hl : Live s)
    (hsr : 1 ≤ s.sr) (hact : s.act.inDomain = true) : s.Inv :=
  s.inv_iff.2 ⟨by simp [hrun], hn, hl.good, fun _ => ⟨hl.ready, hsr, hact⟩⟩

/-- What START leaves is good (R231). -/
theorem State.started_inv {s : State} {sr : Int} (hn : s.snap.inDomain = true) (hsr : 0 < sr) :
    (s.started theParams sr).Inv := by
  have hlive : Live ((s.created theParams sr).derive theParams) := by
    have hlen : 0 < echoInitLen theParams sr := Nat.succ_pos _
    exact .derive ⟨.created hsr, rfl⟩ (combsCreated_good sr) ⟨.created hlen, rfl⟩ ⟨rfl, rfl⟩ hn
  obtain ⟨hgood, hready⟩ := hlive
  refine State.inv_of_live rfl hn ⟨⟨hgood.ps, hgood.cb, hgood.ec⟩, ?_⟩ hsr (derive_act_inDomain (s := s) hn)
  exact ⟨hready.bq, hready.ps, hready.cb, hready.ec, hready.pc, hready.vm, hready.rate⟩

/-- Stopped, with no unit initialised, is good (R37). -/
theorem State.destroyed_inv {s : State} (hn : s.snap.inDomain = true) : (s.destroyed Num.binary32).Inv := by
  refine (State.inv_iff _).2 ⟨nofun, hn, ⟨.none, fun k => ?_, .none⟩, nofun⟩
  have hnone : (s.destroyed Num.binary32).cb.get k = Comb.none Num.binary32 := by
    simp [Vector.get_eq_getElem]
  exact hnone ▸ Comb.Good.none

/-- Settles O54: after reset no unit is initialised and the snapshot is the neutral one. -/
theorem resetStateIsGood : Obligations.ResetStateIsGood :=
  State.destroyed_inv (s := State.reset) (by decide)

/-- The latch of a good running state keeps its units live and its parameters in their domains (R238). -/
theorem State.Inv.latched {s : State} (h : s.Inv) (hrun : s.run = .running) :
    Live (s.latched theParams) ∧ (s.latched theParams).act.inDomain = true ∧ (s.latched theParams).sr = s.sr := by
  obtain ⟨-, hn, hgood, hrunning⟩ := s.inv_iff.1 h
  obtain ⟨hready, -, hact⟩ := hrunning hrun
  unfold State.latched
  split
  · refine ⟨.derive ⟨hgood.ps, hready.ps⟩ (fun k => ⟨hgood.cb k, hready.cb k⟩) ⟨hgood.ec, hready.ec⟩
      ⟨hready.vm, hready.rate⟩ hn, derive_act_inDomain hn, rfl⟩
  · exact ⟨⟨hgood, hready⟩, hact, rfl⟩

theorem execFrameWith_inv {n : Word} {ss : List Half} {s t : State} (h : s.Inv)
    (he : execFrameWith theParams n ss s = .next t) : t.Inv := by
  rcases execFrameWith_next he with rfl | ⟨hrun, hnext⟩
  · exact h
  obtain ⟨hlive, hact, hsr⟩ := h.latched hrun
  obtain ⟨hrun', hn', -⟩ := s.latched_control theParams
  obtain ⟨-, hn, -, hrunning⟩ := s.inv_iff.1 h
  obtain ⟨-, hrate, -⟩ := hrunning hrun
  have hsr' : 1 ≤ (s.latched theParams).sr := hsr ▸ hrate
  have hlatched : (s.latched theParams).Inv := State.inv_of_live (hrun'.trans hrun) (hn' ▸ hn) hlive hsr' hact
  rcases hnext with rfl | ⟨o, o', u, qs, hsamples, rfl⟩
  · exact hlatched
  · have hsame := sameControl_samples hsamples
    have hlive' : Live ((s.latched theParams).emit o) := by
      obtain ⟨hgood, hready⟩ := hlive
      exact ⟨⟨hgood.ps, hgood.cb, hgood.ec⟩,
        ⟨hready.bq, hready.ps, hready.cb, hready.ec, hready.pc, hready.vm, hready.rate⟩⟩
    exact (State.inv_of_live (hsame.run.trans (hrun'.trans hrun)) (hsame.snap ▸ hn' ▸ hn) (hlive'.samples hsamples)
      (hsame.sr ▸ hsr') (hsame.act ▸ hact) : u.Inv)

/-! ## Every operation and every step -/

theorem execWith_inv {i : Instr} {s t : State} (h : s.Inv) (he : execWith theParams i s = .next t) : t.Inv := by
  obtain ⟨hrun, hn, hgood, -⟩ := s.inv_iff.1 h
  cases executed_of_next he with
  | refused e => exact h
  | started sr hsr hstopped => exact State.started_inv hn hsr
  | startFailed ok sr => exact h
  | stopped => exact State.destroyed_inv hn
  | applied a ha =>
    obtain ⟨-, -, -, hrunning⟩ := s.inv_iff.1 h
    refine (State.inv_iff _).2 ⟨hrun, clamped_inDomain ha, ⟨hgood.ps, hgood.cb, hgood.ec⟩, fun hr => ?_⟩
    obtain ⟨hready, hsr, hact⟩ := hrunning hr
    exact ⟨⟨hready.bq, hready.ps, hready.cb, hready.ec, hready.pc, hready.vm, hready.rate⟩, hsr, hact⟩
  | unit i t hi hstopped ht =>
    have hrun' := ht.run.trans hstopped
    exact t.inv_iff.2 ⟨by simp [hrun'], ht.snap ▸ hn, hgood.unitOperation hi he, fun hr => by simp [hrun'] at hr⟩
  | noFrame => exact h
  | frame => exact execFrameWith_inv h he

theorem exec_inv {i : Instr} {s t : State} (h : s.Inv) (he : exec i s = .next t) : t.Inv :=
  execWith_inv h (exec_eq i s ▸ he)

/-- The control context's step takes words off CTRL, answers ERR_ILLEGAL or runs the command. -/
theorem controlStep_inv {s t : State} (h : s.Inv) (hs : s.controlStep exec = .next t) : t.Inv := by
  unfold State.controlStep at hs
  split at hs
  · exact exec_inv (s := s.tookCommand _) h hs
  · cases hs
    exact h
  · cases hs
    exact h

/-- The worker's step takes a frame off CAP and runs it, or does nothing. -/
theorem workerStep_inv {frameMax : Option Nat} {s t : State} (h : s.Inv) (hs : s.workerStep frameMax exec = .next t) :
    t.Inv := by
  unfold State.workerStep at hs
  split at hs
  · split at hs
    · cases hs
      exact h
    · split at hs
      · exact exec_inv (s := s.tookFrame _) h hs
      · cases hs
  · cases hs
    exact h

/-- A turn starts from the state itself, but for the arbitration's count of commands gone ahead. -/
theorem State.turn_cases (s : State) :
    s.turn = .idle ∨ s.turn = .control s ∨ s.turn = .control { s with ahead := s.ahead + 1 } ∨ s.turn = .worker s := by
  cases hc : s.commandReady with
  | false =>
    cases hf : s.frameReady with
    | false => exact .inl (State.turn_idle hc hf)
    | true => exact .inr (.inr (.inr (State.turn_worker hc hf)))
  | true =>
    cases hf : s.frameReady with
    | false => exact .inr (.inl (State.turn_control hc hf))
    | true =>
      rw [State.turn_both hc hf]
      split
      · exact .inr (.inr (.inr rfl))
      · exact .inr (.inr (.inl rfl))

/-- The block's step is the step of the agent whose turn it is. -/
theorem step_inv {s t : State} (h : s.Inv) (hs : step s = .next t) : t.Inv := by
  unfold step State.stepBy at hs
  rcases s.turn_cases with hturn | hturn | hturn | hturn <;> rw [hturn] at hs
  · cases hs
    exact h
  · exact controlStep_inv h hs
  · exact controlStep_inv (s := { s with ahead := s.ahead + 1 }) h hs
  · exact workerStep_inv h hs

/-- What stands outside touches the queues of the ports, which the invariant does not speak of. -/
theorem outside_inv {s : State} (e : External) (h : s.Inv) : (s.outside e).Inv := by
  cases e with
  | offerWords ws => exact h
  | takeResponse => exact h
  | offerFrame f => exact h
  | dropFrame k =>
    unfold State.outside
    dsimp only
    split <;> exact h
  | acceptLevel => exact h
  | acceptFrame => exact h

/-- Settles O55: every operation keeps the invariant, and the steps add only what they take from the ports. -/
theorem everyStepKeepsTheInvariant : Obligations.EveryStepKeepsTheInvariant :=
  ⟨fun _ _ h => step_inv h, fun _ _ h hs => hs.elim (controlStep_inv h) (workerStep_inv h),
    fun _ e h => outside_inv e h⟩

end Sys2Proof.Machine
end

section
/-! PROOFS. What an uninitialised unit contains cannot be observed (spec/10_state.md R37): an operation from a state and
from what is visible of it answers alike and leaves states that look alike, since every operation checks that a unit is
initialised before it reads it. -/

namespace Sys2Proof.Machine

open Sys2Proof

/-! ## What is visible of a state -/

/-- What is visible of an outcome: of its next state, what an operation may depend on. -/
def seen : Result → Result
  | .next t => .next t.visible
  | .fault f => .fault f
  | .refused r => .refused r

/-- What is visible of a biquad and of a comb, as `State.visible` has it. -/
def Biquad.visible (b : Biquad) : Biquad := if b.init then b else Biquad.none Num.binary32

def Comb.visible (c : Comb) : Comb := if c.init then c else Comb.none Num.binary32

theorem State.visible_bq (s : State) : s.visible.bq = s.bq.map Biquad.visible := rfl

theorem State.visible_cb (s : State) : s.visible.cb = s.cb.map Comb.visible := rfl

/-- Replacing what a flag hides keeps the flag, so that replacing it again changes nothing. -/
theorem init_ite {α : Type} {init : α → Bool} {x none : α} (hnone : init none = false) :
    init (if init x then x else none) = init x := by
  split
  · rfl
  · next h => rw [hnone, Bool.eq_false_of_not_eq_true h]

theorem ite_init_idem {α : Type} {init : α → Bool} {x none : α} (hnone : init none = false) :
    (if init (if init x then x else none) then (if init x then x else none) else none) =
      if init x then x else none := by
  rw [init_ite hnone]
  split <;> rfl

@[simp] theorem Biquad.visible_init (b : Biquad) : b.visible.init = b.init := init_ite rfl

@[simp] theorem Comb.visible_init (c : Comb) : c.visible.init = c.init := init_ite rfl

@[simp] theorem State.visible_ps_init (s : State) : s.visible.ps.init = s.ps.init := init_ite rfl

@[simp] theorem State.visible_ec_init (s : State) : s.visible.ec.init = s.ec.init := init_ite rfl

@[simp] theorem State.visible_pc_init (s : State) : s.visible.pc.init = s.pc.init := init_ite rfl

@[simp] theorem State.visible_vm_init (s : State) : s.visible.vm.init = s.vm.init := init_ite rfl

@[simp] theorem State.visible_bq_init (s : State) (u : Fin 9) : (s.visible.bq.get u).init = (s.bq.get u).init := by
  rw [State.visible_bq, Vector.get_map, Biquad.visible_init]

@[simp] theorem State.visible_cb_init (s : State) (k : Fin 3) : (s.visible.cb.get k).init = (s.cb.get k).init := by
  rw [State.visible_cb, Vector.get_map, Comb.visible_init]

@[simp] theorem State.visible_combsInit (s : State) : combsInit s.visible.cb = combsInit s.cb := by
  rw [Bool.eq_iff_iff, combsInit, combsInit, all_iff_get, all_iff_get]
  simp

theorem State.visible_allInit (s : State) : s.visible.allInit = s.allInit := by
  have hbq : s.visible.bq.all Biquad.init = s.bq.all Biquad.init := by
    rw [Bool.eq_iff_iff, all_iff_get, all_iff_get]
    simp
  simp only [State.allInit, hbq, State.visible_ps_init, State.visible_combsInit, State.visible_ec_init,
    State.visible_pc_init, State.visible_vm_init]

theorem State.visible_visible (s : State) : s.visible.visible = s.visible := by
  have hbq : s.visible.visible.bq = s.visible.bq := by
    simp only [State.visible_bq, Vector.map_map]
    congr 1
    exact funext fun b => ite_init_idem rfl
  have hcb : s.visible.visible.cb = s.visible.cb := by
    simp only [State.visible_cb, Vector.map_map]
    congr 1
    exact funext fun c => ite_init_idem rfl
  have hps : s.visible.visible.ps = s.visible.ps := ite_init_idem rfl
  have hec : s.visible.visible.ec = s.visible.ec := ite_init_idem rfl
  have hpc : s.visible.visible.pc = s.visible.pc := ite_init_idem rfl
  have hvm : s.visible.visible.vm = s.visible.vm := ite_init_idem rfl
  have hsr : s.visible.visible.sr = s.visible.sr := by
    simp only [State.visible]
    split <;> rfl
  have hact : s.visible.visible.act = s.visible.act := by
    simp only [State.visible]
    split <;> rfl
  calc s.visible.visible
      = { s.visible with
          sr := s.visible.visible.sr, act := s.visible.visible.act, bq := s.visible.visible.bq,
          ps := s.visible.visible.ps, cb := s.visible.visible.cb, ec := s.visible.visible.ec,
          pc := s.visible.visible.pc, vm := s.visible.visible.vm } := rfl
    _ = s.visible := by rw [hsr, hact, hbq, hps, hcb, hec, hpc, hvm]

/-! ## What an initialised unit shows -/

theorem State.visible_ps_of_init {s : State} (h : s.ps.init = true) : s.visible.ps = s.ps := if_pos h

theorem State.visible_ec_of_init {s : State} (h : s.ec.init = true) : s.visible.ec = s.ec := if_pos h

theorem State.visible_pc_of_init {s : State} (h : s.pc.init = true) : s.visible.pc = s.pc := if_pos h

theorem State.visible_vm_of_init {s : State} (h : s.vm.init = true) : s.visible.vm = s.vm := if_pos h

theorem State.visible_bq_of_init {s : State} {u : Fin 9} (h : (s.bq.get u).init = true) :
    s.visible.bq.get u = s.bq.get u := by
  rw [State.visible_bq, Vector.get_map]
  exact if_pos h

theorem State.visible_cb_of_init {s : State} {k : Fin 3} (h : (s.cb.get k).init = true) :
    s.visible.cb.get k = s.cb.get k := by
  rw [State.visible_cb, Vector.get_map]
  exact if_pos h

theorem vector_ext_get {α : Type} {n : Nat} {v w : Vector α n} (h : ∀ i : Fin n, v.get i = w.get i) : v = w :=
  Vector.ext fun i hi => h ⟨i, hi⟩

theorem State.visible_cb_of_combsInit {s : State} (h : combsInit s.cb = true) : s.visible.cb = s.cb :=
  vector_ext_get fun k => visible_cb_of_init (all_iff_get.1 h k)

/-- Nothing is hidden of a stream whose units are all initialised. -/
theorem State.visible_of_running {s : State} (hrun : s.run = .running) (h : s.allInit = true) : s.visible = s := by
  simp only [State.allInit, Bool.and_eq_true] at h
  obtain ⟨⟨⟨⟨⟨hbq, hps⟩, hcb⟩, hec⟩, hpc⟩, hvm⟩ := h
  have hbq' : s.visible.bq = s.bq := vector_ext_get fun u => visible_bq_of_init (all_iff_get.1 hbq u)
  have hsr : s.visible.sr = s.sr := if_neg (by simp [hrun])
  have hact : s.visible.act = s.act := if_neg (by simp [hrun])
  calc s.visible
      = { s with
          sr := s.visible.sr, act := s.visible.act, bq := s.visible.bq, ps := s.visible.ps, cb := s.visible.cb,
          ec := s.visible.ec, pc := s.visible.pc, vm := s.visible.vm } := rfl
    _ = s := by
      rw [hsr, hact, hbq', visible_ps_of_init hps, visible_cb_of_combsInit hcb, visible_ec_of_init hec,
        visible_pc_of_init hpc, visible_vm_of_init hvm]

/-! ## Updates of what is visible -/

section

variable (s : State)

theorem State.visible_respond {s t : State} (h : s.visible = t.visible) (st : Status) (v : Word) :
    (s.respond st v).visible = (t.respond st v).visible :=
  congrArg (State.respond st v) h

theorem State.visible_with_ps (x : PitchShifter) :
    ({ s with ps := x } : State).visible = ({ s.visible with ps := x } : State).visible :=
  congrArg (fun v : State => { v with ps := if x.init then x else PitchShifter.none Num.binary32 })
    s.visible_visible.symm

theorem State.visible_with_cb (x : Vector Comb 3) :
    ({ s with cb := x } : State).visible = ({ s.visible with cb := x } : State).visible :=
  congrArg (fun v : State => { v with cb := x.map Comb.visible }) s.visible_visible.symm

theorem State.visible_with_ec (x : Echo) :
    ({ s with ec := x } : State).visible = ({ s.visible with ec := x } : State).visible :=
  congrArg (fun v : State => { v with ec := if x.init then x else Echo.none Num.binary32 }) s.visible_visible.symm

theorem State.visible_with_pc (x : PresetConfig) :
    ({ s with pc := x } : State).visible = ({ s.visible with pc := x } : State).visible :=
  congrArg (fun v : State => { v with pc := if x.init then x else PresetConfig.none Num.binary32 })
    s.visible_visible.symm

theorem State.visible_with_vm (x : VoiceModulator) :
    ({ s with vm := x } : State).visible = ({ s.visible with vm := x } : State).visible :=
  congrArg (fun v : State => { v with vm := if x.init then x else VoiceModulator.none Num.binary32 })
    s.visible_visible.symm

theorem State.visible_with_snap (n : Snapshot) (pend : Bool) :
    ({ s with snap := n, pend := pend } : State).visible =
      ({ s.visible with snap := n, pend := pend } : State).visible :=
  congrArg (fun v : State => { v with snap := n, pend := pend }) s.visible_visible.symm

theorem State.visible_setBq (u : Fin 9) (b : Biquad) : (s.setBq u b).visible = (s.visible.setBq u b).visible := by
  have hset (t : State) : (t.setBq u b).visible = t.visible.setBq u b.visible := by
    have hbq : (t.setBq u b).visible.bq = (t.visible.setBq u b.visible).bq := by
      simp [State.visible_bq, Vector.map_set]
    exact congrArg (fun v => ({ t.visible with bq := v } : State)) hbq
  rw [hset, hset, State.visible_visible]

theorem State.visible_setCb (k : Fin 3) (c : Comb) : (s.setCb k c).visible = (s.visible.setCb k c).visible := by
  have hset (t : State) : (t.setCb k c).visible = t.visible.setCb k c.visible := by
    have hcb : (t.setCb k c).visible.cb = (t.visible.setCb k c.visible).cb := by
      simp [State.visible_cb, Vector.map_set]
    exact congrArg (fun v => ({ t.visible with cb := v } : State)) hcb
  rw [hset, hset, State.visible_visible]

end

/-! ## Outcomes that look alike -/

theorem seen_next {s t : State} (h : s.visible = t.visible) : seen (.next s) = seen (.next t) :=
  congrArg Host.Outcome.next h

theorem seen_complete {s t : State} (h : s.visible = t.visible) : seen (complete s) = seen (complete t) :=
  seen_next (State.visible_respond h _ _)

/-- A guarded command with the same checks, refused alike, and alike where no check fails. -/
theorem seen_guarded {s : State} {checks checks' : List (Bool × Status)} {act act' : Result} (hc : checks' = checks)
    (hact : (∀ c ∈ checks, c.1 = true) → seen act = seen act') :
    seen (s.guarded checks act) = seen (s.visible.guarded checks' act') := by
  subst hc
  cases hf : firstFailing checks' with
  | none =>
    rw [State.guarded_pass hf, State.guarded_pass hf]
    exact hact (firstFailing_eq_none.1 hf)
  | some e =>
    rw [State.guarded_refuse hf, State.guarded_refuse hf]
    exact seen_next (State.visible_respond s.visible_visible.symm e 0#32)

/-- Answers of a unit that look alike: the same fault, or the same value and states that look alike. -/
inductive AnswerAlike : Except Fault (State × NUM) → Except Fault (State × NUM) → Prop
  | error (f : Fault) : AnswerAlike (.error f) (.error f)
  | ok {s t : State} (y : NUM) (h : s.visible = t.visible) : AnswerAlike (.ok (s, y)) (.ok (t, y))

theorem seen_completeValue {N : Num NUM} {r r' : Except Fault (State × NUM)} (h : AnswerAlike r r') :
    seen (completeValue N r) = seen (completeValue N r') := by
  cases h with
  | error f => rfl
  | ok y h => exact seen_next (State.visible_respond h _ _)

theorem answerAlike_filter {s : State} {u : Fin 9} (h : (s.bq.get u).init = true) (x : NUM) :
    AnswerAlike (.ok (s.filter Num.binary32 u x)) (.ok (s.visible.filter Num.binary32 u x)) := by
  unfold State.filter
  rw [State.visible_bq_of_init h]
  exact .ok _ (s.visible_setBq ..)

theorem answerAlike_shift {s : State} (h : s.ps.init = true) (x ratio : NUM) :
    AnswerAlike (s.shift theParams x ratio) (s.visible.shift theParams x ratio) := by
  unfold State.shift
  rw [State.visible_ps_of_init h]
  cases s.ps.process theParams x ratio with
  | error f => exact .error f
  | ok r => exact .ok _ (s.visible_with_ps _)

theorem answerAlike_comb {s : State} {k : Fin 3} (h : (s.cb.get k).init = true) (x : NUM) :
    AnswerAlike (s.comb Num.binary32 k x) (s.visible.comb Num.binary32 k x) := by
  unfold State.comb
  rw [State.visible_cb_of_init h]
  cases (s.cb.get k).process Num.binary32 x with
  | error f => exact .error f
  | ok r => exact .ok _ (s.visible_setCb ..)

theorem answerAlike_reverb {s : State} (h : combsInit s.cb = true) (x wet : NUM) :
    AnswerAlike (s.reverb theParams x wet) (s.visible.reverb theParams x wet) := by
  unfold State.reverb
  rw [State.visible_cb_of_combsInit h]
  cases reverbProcess theParams s.cb x wet with
  | error f => exact .error f
  | ok r => exact .ok _ (s.visible_with_cb _)

theorem answerAlike_echo {s : State} (h : s.ec.init = true) (x : NUM) :
    AnswerAlike (s.echo Num.binary32 x) (s.visible.echo Num.binary32 x) := by
  unfold State.echo
  rw [State.visible_ec_of_init h]
  cases s.ec.process Num.binary32 x with
  | error f => exact .error f
  | ok r => exact .ok _ (s.visible_with_ec _)

theorem answerAlike_modulate {s : State} (hvm : s.vm.init = true) (hpc : s.pc.init = true) (x : NUM) :
    AnswerAlike (.ok (s.modulate theParams x)) (.ok (s.visible.modulate theParams x)) := by
  have hprocess : s.visible.vm.process theParams s.visible.pc.row x = s.vm.process theParams s.pc.row x := by
    rw [State.visible_vm_of_init hvm, State.visible_pc_of_init hpc]
  unfold State.modulate
  rw [hprocess]
  exact .ok _ (s.visible_with_vm _)

/-! ## Every operation -/

/-- Outside Running an operation does the same from what is visible of a state: it sets a unit from its operands, or
reads one that is initialised. -/
theorem execWith_visible_of_not_running (i : Instr) {s : State} (hrun : s.run ≠ .running) :
    seen (execWith theParams i s) = seen (execWith theParams i s.visible) := by
  cases i with
  | start ok sr =>
    refine seen_guarded rfl fun _ => ?_
    have hstarted : s.visible.started theParams (i32 sr) = s.started theParams (i32 sr) := rfl
    rw [hstarted]
    split
    · rfl
    · exact seen_next (State.visible_respond s.visible_visible.symm _ _)
  | stop => exact seen_complete rfl
  | apply a => exact seen_guarded rfl fun _ => seen_complete (s.visible_with_snap ..)
  | bqByp u => exact seen_guarded rfl fun _ => seen_complete (s.visible_setBq ..)
  | bqPeak u f g q sr => exact seen_guarded rfl fun _ => seen_complete (s.visible_setBq ..)
  | bqLsh u f g sr => exact seen_guarded rfl fun _ => seen_complete (s.visible_setBq ..)
  | bqHsh u f g sr => exact seen_guarded rfl fun _ => seen_complete (s.visible_setBq ..)
  | bqProc u x =>
    refine seen_guarded (by rw [State.visible_bq_init]; rfl) fun hpass => seen_completeValue (answerAlike_filter ?_ _)
    exact hpass (initCheck (s.bq.get (biquadIndex u)).init) (by simp)
  | psInit sr => exact seen_guarded rfl fun _ => seen_complete (s.visible_with_ps _)
  | psProc x ratio =>
    refine seen_guarded (by rw [State.visible_ps_init]; rfl) fun hpass => seen_completeValue (answerAlike_shift ?_ _ _)
    exact hpass (initCheck s.ps.init) (by simp)
  | cbInit u len fb => exact seen_guarded rfl fun _ => seen_complete (s.visible_setCb ..)
  | cbProc u x =>
    refine seen_guarded (by rw [State.visible_cb_init]; rfl) fun hpass => seen_completeValue (answerAlike_comb ?_ _)
    exact hpass (initCheck (s.cb.get (combIndex u)).init) (by simp)
  | rvInit sr => exact seen_guarded rfl fun _ => seen_complete (s.visible_with_cb _)
  | rvProc x wet =>
    refine seen_guarded (by rw [State.visible_combsInit]; rfl) fun hpass =>
      seen_completeValue (answerAlike_reverb ?_ _ _)
    exact hpass (initCheck (combsInit s.cb)) (by simp)
  | ecInit len => exact seen_guarded rfl fun _ => seen_complete (s.visible_with_ec _)
  | ecCfg d mix fb =>
    refine seen_guarded (by rw [State.visible_ec_init]; rfl) fun hpass => seen_complete ?_
    rw [State.visible_ec_of_init (hpass (initCheck s.ec.init) (by simp))]
    exact s.visible_with_ec _
  | ecProc x =>
    refine seen_guarded (by rw [State.visible_ec_init]; rfl) fun hpass => seen_completeValue (answerAlike_echo ?_ _)
    exact hpass (initCheck s.ec.init) (by simp)
  | vpLoad v => exact seen_guarded rfl fun _ => seen_complete (s.visible_with_pc _)
  | vmInit sr => exact seen_guarded rfl fun _ => seen_complete (s.visible_with_vm _)
  | vmProc x =>
    refine seen_guarded (by rw [State.visible_vm_init, State.visible_pc_init]; rfl) fun hpass => ?_
    obtain ⟨hvm, hpc⟩ := Bool.and_eq_true_iff.1 (hpass (initCheck (s.vm.init && s.pc.init)) (by simp))
    exact seen_completeValue (answerAlike_modulate hvm hpc _)
  | lmFrame ss => exact seen_guarded rfl fun _ => seen_completeValue (.ok _ s.visible_visible.symm)
  | frame n ss =>
    have hidle (t : State) (ht : t.run ≠ .running) : execWith theParams (.frame n ss) t = .next t := if_neg ht
    rw [hidle s hrun, hidle s.visible hrun]
    exact seen_next s.visible_visible.symm

/-- An operation does the same from what is visible of a state: Running has every unit initialised and hides nothing. -/
theorem exec_visible (i : Instr) {s : State} (h : s.run = .running → s.allInit = true) :
    seen (exec i s) = seen (exec i s.visible) := by
  by_cases hrun : s.run = .running
  · rw [State.visible_of_running hrun (h hrun)]
  · rw [exec_eq, exec_eq]
    exact execWith_visible_of_not_running i hrun

/-- Settles O60: both outcomes look like the one from what is visible of both states. -/
theorem uninitialisedContentsAreNeverObserved : Obligations.UninitialisedContentsAreNeverObserved := by
  intro i s s' h hvis
  have h' : s'.run = .running → s'.allInit = true := by
    intro hrun
    have hrun' : s.visible.run = s'.visible.run := by rw [hvis]
    rw [← State.visible_allInit, ← hvis, State.visible_allInit]
    exact h (hrun'.trans hrun)
  have hseen : seen (exec i s) = seen (exec i s') := by
    rw [exec_visible i h, hvis, ← exec_visible i h']
  generalize exec i s = r at hseen
  generalize exec i s' = r' at hseen
  cases r with
  | next t =>
    cases r' with
    | next t' => exact Host.Outcome.next.inj hseen
    | fault f' => cases hseen
    | refused e' => cases hseen
  | fault f =>
    cases r' with
    | next t' => cases hseen
    | fault f' => exact Host.Outcome.fault.inj hseen
    | refused e' => cases hseen
  | refused e =>
    cases r' with
    | next t' => cases hseen
    | fault f' => cases hseen
    | refused e' => exact Host.Outcome.refused.inj hseen

end Sys2Proof.Machine
end

section
/-! PROOFS. From a good state every operation completes (spec/20_memory.md R62; spec/60_exceptions.md R269): the cursors
of an initialised unit lie in its buffer, so that a unit answers every sample, and an uninitialised one is not asked. -/

namespace Sys2Proof.Machine

open Sys2Proof

/-! ## A unit whose cursors lie in its buffer answers -/

section

variable {F : Type} [DecidableEq F]

theorem PitchShifter.process_answers {ps : PitchShifter F} (hw : ps.w < ps.size) (p : Params F) (x ratio : F) :
    ∃ ps' y, ps.process p x ratio = .ok (ps', y) := by
  cases hd : outsideDeadband p (p.clamp ratio p.pitchMin p.pitchMax) with
  | false => exact ⟨_, _, process_inside hw hd⟩
  | true =>
    obtain ⟨y, -, hy⟩ := process_outside (x := x) hw hd
    exact ⟨_, y, hy⟩

theorem Comb.process_answers {c : Comb F} (hcur : c.cur < c.len) (N : Num F) (x : F) :
    ∃ c' y, c.process N x = .ok (c', y) :=
  ⟨_, _, Comb.process_ok.2 ⟨hcur, rfl, rfl⟩⟩

theorem Echo.process_answers {ec : Echo F} (hcur : ec.cur < ec.len) (N : Num F) (x : F) :
    ∃ ec' y, ec.process N x = .ok (ec', y) :=
  ⟨_, _, Echo.process_ok.2 ⟨⟨cursorBack_lt _ _ (Nat.zero_lt_of_lt hcur), hcur⟩, rfl, rfl⟩⟩

theorem reverbProcess_answers {cb : Vector (Comb F) 3} (hcur : ∀ k : Fin 3, (cb.get k).cur < (cb.get k).len)
    (p : Params F) (x wet : F) : ∃ cb' y, reverbProcess p cb x wet = .ok (cb', y) := by
  obtain ⟨cb', m, hstep⟩ : ∃ cb' m, combsStepped p.toNum cb x = .ok (cb', m) := by
    obtain ⟨c0, o0, h0⟩ := Comb.process_answers (hcur 0) p.toNum x
    obtain ⟨c1, o1, h1⟩ := Comb.process_answers (hcur 1) p.toNum x
    obtain ⟨c2, o2, h2⟩ := Comb.process_answers (hcur 2) p.toNum x
    exact ⟨_, _, combsStepped_ok.2 ⟨c0, c1, c2, o0, o1, o2, h0, h1, h2, rfl, rfl⟩⟩
  unfold reverbProcess
  dsimp only
  rw [hstep]
  split
  · split <;> exact ⟨_, _, rfl⟩
  · exact ⟨_, _, rfl⟩

/-- One sample answers when the pitch shifter, the reverb and the echo line do: the converse of `State.sample_ok`. -/
theorem State.sample_of_stages {p : Params F} {s s3 s5 s6 : State F} {x : Half} {e f m v : State F × F} {v3 v5 v6 : F}
    (he : s.eqStage p (pcmIn p x) = e) (hf : e.1.formantStage p.toNum e.2 = f)
    (h3 : f.1.shift p f.2 f.1.act.pitchRatio = .ok (s3, v3)) (hm : s3.modulate p v3 = m)
    (hv : m.1.toneStage p.toNum m.2 = v) (h5 : v.1.reverb p v.2 v.1.act.wet = .ok (s5, v5))
    (h6 : s5.echo p.toNum v5 = .ok (s6, v6)) :
    s.sample p x = .ok (s6, pcmOut p (p.clamp (p.mul v6 s6.act.volume) p.clipLo p.clipHi)) := by
  subst he hf hm hv
  unfold State.sample
  dsimp only
  rw [h3]
  dsimp only
  rw [h5]
  dsimp only
  rw [h6]

end

/-! ## An initialised unit of a good state answers -/

theorem PitchShifter.Good.write_lt {ps : PitchShifter} (h : ps.Good) (hi : ps.init = true) : ps.w < ps.size := by
  obtain ⟨-, -, hw, -⟩ := (PitchShifter.ok_iff ps).1 (h.ok hi)
  exact hw

theorem Comb.Good.cursor_lt {c : Comb} (h : c.Good) (hi : c.init = true) : c.cur < c.len :=
  ((Comb.ok_iff c).1 (h.ok hi)).2

theorem Echo.Good.cursor_lt {ec : Echo} (h : ec.Good) (hi : ec.init = true) : ec.cur < ec.len :=
  ((Echo.ok_iff ec).1 (h.ok hi)).1

namespace State.GoodUnits

variable {s : State} (h : s.GoodUnits)

include h

theorem shift_answers (hi : s.ps.init = true) (x ratio : NUM) : ∃ t y, s.shift theParams x ratio = .ok (t, y) := by
  obtain ⟨ps, y, hps⟩ := PitchShifter.process_answers (h.ps.write_lt hi) theParams x ratio
  exact ⟨_, y, State.shift_ok.2 ⟨ps, hps, rfl⟩⟩

theorem comb_answers {k : Fin 3} (hi : (s.cb.get k).init = true) (x : NUM) :
    ∃ t y, s.comb Num.binary32 k x = .ok (t, y) := by
  obtain ⟨c, y, hc⟩ := Comb.process_answers ((h.cb k).cursor_lt hi) Num.binary32 x
  exact ⟨_, y, State.comb_ok.2 ⟨c, hc, rfl⟩⟩

theorem reverb_answers (hi : ∀ k : Fin 3, (s.cb.get k).init = true) (x wet : NUM) :
    ∃ t y, s.reverb theParams x wet = .ok (t, y) := by
  obtain ⟨cb, y, hcb⟩ := reverbProcess_answers (fun k => (h.cb k).cursor_lt (hi k)) theParams x wet
  exact ⟨_, y, State.reverb_ok.2 ⟨cb, hcb, rfl⟩⟩

theorem echo_answers (hi : s.ec.init = true) (x : NUM) : ∃ t y, s.echo Num.binary32 x = .ok (t, y) := by
  obtain ⟨ec, y, hec⟩ := Echo.process_answers (h.ec.cursor_lt hi) Num.binary32 x
  exact ⟨_, y, State.echo_ok.2 ⟨ec, hec, rfl⟩⟩

end State.GoodUnits

/-! ## The samples of a stream -/

/-- Each stage leaves the units live, so the next one answers too (R242). -/
theorem Live.sample_answers {s : State} (h : Live s) (x : Half) : ∃ t q, s.sample theParams x = .ok (t, q) := by
  have hfilters := (h.eqStage (pcmIn theParams x)).filters [5, 6] (s.eqStage theParams (pcmIn theParams x)).2
  obtain ⟨s3, v3, h3⟩ := hfilters.good.shift_answers hfilters.ready.ps _ _
  have htone := ((hfilters.shift h3).modulate v3).filters [7, 8] (s3.modulate theParams v3).2
  obtain ⟨s5, v5, h5⟩ := htone.good.reverb_answers htone.ready.cb _ _
  have hreverb := htone.reverb h5
  obtain ⟨s6, v6, h6⟩ := hreverb.good.echo_answers hreverb.ready.ec v5
  exact ⟨_, _, State.sample_of_stages rfl rfl h3 rfl rfl h5 h6⟩

theorem Live.samples_answers {xs : List Half} : ∀ {s : State}, Live s →
    ∃ t qs, s.samples theParams xs = .ok (t, qs) := by
  induction xs with
  | nil => exact fun _ => ⟨_, _, rfl⟩
  | cons x xs ih =>
    intro s h
    obtain ⟨u, q, hsample⟩ := h.sample_answers x
    obtain ⟨t, qs, hrest⟩ := ih (h.sample hsample)
    exact ⟨t, q :: qs, State.samples_cons_ok.2 ⟨u, q, qs, hsample, hrest, rfl⟩⟩

theorem Live.emit {s : State} (h : Live s) (o : Output) : Live (s.emit o) :=
  ⟨⟨h.good.ps, h.good.cb, h.good.ec⟩,
    ⟨h.ready.bq, h.ready.ps, h.ready.cb, h.ready.ec, h.ready.pc, h.ready.vm, h.ready.rate⟩⟩

/-! ## Every operation -/

theorem State.guarded_answers {s : State} {checks : List (Bool × Status)} {act : Result}
    (h : (∀ c ∈ checks, c.1 = true) → ∃ t, act = .next t) : ∃ t, s.guarded checks act = .next t := by
  cases hf : firstFailing checks with
  | none => exact State.guarded_pass hf ▸ h (firstFailing_eq_none.1 hf)
  | some e => exact ⟨_, State.guarded_refuse hf⟩

theorem completeValue_answers {N : Num NUM} {r : Except Fault (State × NUM)} (h : ∃ u y, r = .ok (u, y)) :
    ∃ t, completeValue N r = .next t := by
  obtain ⟨u, y, rfl⟩ := h
  exact ⟨_, rfl⟩

/-- FRAME of a good state completes: not Running it does nothing, and Running has every unit initialised (R37). -/
theorem State.Inv.frame_answers {s : State} (h : s.Inv) (n : Word) (ss : List Half) :
    ∃ t, execFrameWith theParams n ss s = .next t := by
  unfold execFrameWith
  split
  case isFalse => exact ⟨_, rfl⟩
  case isTrue hrun =>
    dsimp only
    split
    · exact ⟨_, rfl⟩
    · obtain ⟨hlive, -, -⟩ := h.latched hrun
      obtain ⟨u, qs, hsamples⟩ := (hlive.emit _).samples_answers (xs := ss)
      rw [hsamples]
      exact ⟨_, rfl⟩

/-- From a good state every operation goes on to a next state: a command that runs a sample through a unit is refused
unless the unit is initialised, and no other command reads a buffer. -/
theorem State.Inv.execWith_answers {s : State} (h : s.Inv) (i : Instr) : ∃ t, execWith theParams i s = .next t := by
  obtain ⟨-, -, hgood, -⟩ := s.inv_iff.1 h
  cases i with
  | frame n ss => exact h.frame_answers n ss
  | psProc x ratio =>
    refine State.guarded_answers fun hpass => completeValue_answers (hgood.shift_answers ?_ _ _)
    exact hpass (initCheck s.ps.init) (by simp)
  | cbProc u x =>
    refine State.guarded_answers fun hpass => completeValue_answers (hgood.comb_answers ?_ _)
    exact hpass (initCheck (s.cb.get (combIndex u)).init) (by simp)
  | rvProc x wet =>
    refine State.guarded_answers fun hpass => completeValue_answers (hgood.reverb_answers ?_ _ _)
    exact all_iff_get.1 (hpass (initCheck (combsInit s.cb)) (by simp))
  | ecProc x =>
    refine State.guarded_answers fun hpass => completeValue_answers (hgood.echo_answers ?_ _)
    exact hpass (initCheck s.ec.init) (by simp)
  | start ok sr =>
    refine State.guarded_answers fun _ => ?_
    split <;> exact ⟨_, rfl⟩
  | stop => exact ⟨_, rfl⟩
  | _ => exact State.guarded_answers fun _ => ⟨_, rfl⟩

/-! ## The steps of the agents -/

theorem State.Inv.exec_answers {s : State} (h : s.Inv) (i : Instr) : ∃ t, exec i s = .next t :=
  exec_eq i s ▸ h.execWith_answers i

theorem State.Inv.controlStep_answers {s : State} (h : s.Inv) : ∃ t, s.controlStep exec = .next t := by
  unfold State.controlStep
  split
  · exact State.Inv.exec_answers (s := s.tookCommand _) h _
  · exact ⟨_, rfl⟩
  · exact ⟨_, rfl⟩

/-- The worker's step of a good state goes on, or refuses a frame outside the input domain (R95). -/
theorem State.Inv.workerStep_answers {s : State} (h : s.Inv) (frameMax : Option Nat) :
    (∃ t, s.workerStep frameMax exec = .next t) ∨ s.workerStep frameMax exec = .refused .malformedFrame := by
  unfold State.workerStep
  split
  · split
    · exact .inl ⟨_, rfl⟩
    · split
      · exact .inl (State.Inv.exec_answers (s := s.tookFrame _) h _)
      · exact .inr rfl
  · exact .inl ⟨_, rfl⟩

/-- A step of a good state goes on, or refuses a frame outside the input domain (R95). -/
theorem State.Inv.step_answers {s : State} (h : s.Inv) :
    (∃ t, step s = .next t) ∨ step s = .refused .malformedFrame := by
  unfold step State.stepBy
  rcases s.turn_cases with hturn | hturn | hturn | hturn <;> rw [hturn]
  · exact .inl ⟨_, rfl⟩
  · exact .inl h.controlStep_answers
  · exact .inl (State.Inv.controlStep_answers (s := { s with ahead := s.ahead + 1 }) h)
  · exact h.workerStep_answers _

/-- Settles O56: a step of a good state goes on or refuses, since each unit it reads has its cursors in its buffer. -/
theorem goodStatesNeverFault : Obligations.GoodStatesNeverFault := by
  intro s h f hfault
  rcases h.step_answers with ⟨t, ht⟩ | hrefused
  · exact absurd (ht.symm.trans hfault) nofun
  · exact absurd (hrefused.symm.trans hfault) nofun

end Sys2Proof.Machine
end

section
/-! PROOFS. The byte-serial transport (spec/20_memory.md R70): the bytes of a word and of a sample join to it again, and
so do those of whole transactions, word by word and sample by sample. -/

namespace Sys2Proof

/-! ## One word and one sample -/

/-- The bits of a vector from a place on are its value divided by that power of two. -/
theorem extractLsb'_eq_ofNat_div {n : Nat} (start len : Nat) (x : BitVec n) :
    x.extractLsb' start len = BitVec.ofNat len (x.toNat / 2 ^ start) := by
  rw [BitVec.extractLsb', Nat.shiftRight_eq_div_pow]

theorem bytesOfWord_eq_div (w : Word) : bytesOfWord w =
    [BitVec.ofNat 8 w.toNat, BitVec.ofNat 8 (w.toNat / 2 ^ 8), BitVec.ofNat 8 (w.toNat / 2 ^ 16),
      BitVec.ofNat 8 (w.toNat / 2 ^ 24)] := by
  simp only [bytesOfWord, extractLsb'_eq_ofNat_div, pow_zero, Nat.div_one]

theorem bytesOfHalf_eq_div (h : Half) :
    bytesOfHalf h = [BitVec.ofNat 8 h.toNat, BitVec.ofNat 8 (h.toNat / 2 ^ 8)] := by
  simp only [bytesOfHalf, extractLsb'_eq_ofNat_div, pow_zero, Nat.div_one]

theorem word_of_bytes (w : Word) :
    w.extractLsb' 24 8 ++ w.extractLsb' 16 8 ++ w.extractLsb' 8 8 ++ w.extractLsb' 0 8 = w := by
  rw [BitVec.extractLsb'_append_extractLsb'_eq_extractLsb' (by rfl),
    BitVec.extractLsb'_append_extractLsb'_eq_extractLsb' (by rfl),
    BitVec.extractLsb'_append_extractLsb'_eq_extractLsb' (by rfl)]
  exact BitVec.extractLsb'_eq_self

theorem half_of_bytes (h : Half) : h.extractLsb' 8 8 ++ h.extractLsb' 0 8 = h := by
  rw [BitVec.extractLsb'_append_extractLsb'_eq_extractLsb' (by rfl)]
  exact BitVec.extractLsb'_eq_self

/-! ## Whole transactions -/

theorem wordsOfBytes_bytesOfWord_append (w : Word) (bs : List Byte) :
    wordsOfBytes (bytesOfWord w ++ bs) = w :: wordsOfBytes bs :=
  congrArg (· :: wordsOfBytes bs) (word_of_bytes w)

theorem halvesOfBytes_bytesOfHalf_append (h : Half) (bs : List Byte) :
    halvesOfBytes (bytesOfHalf h ++ bs) = h :: halvesOfBytes bs :=
  congrArg (· :: halvesOfBytes bs) (half_of_bytes h)

theorem frameOfBytes_bytesOfWord_append (w : Word) (bs : List Byte) :
    frameOfBytes (bytesOfWord w ++ bs) = some ⟨w, halvesOfBytes bs⟩ :=
  congrArg (fun count => some (Frame.mk count (halvesOfBytes bs))) (word_of_bytes w)

theorem wordsOfBytes_flatMap (ws : List Word) : wordsOfBytes (ws.flatMap bytesOfWord) = ws := by
  induction ws with
  | nil => rfl
  | cons w ws ih => rw [List.flatMap_cons, wordsOfBytes_bytesOfWord_append, ih]

theorem halvesOfBytes_flatMap (hs : List Half) : halvesOfBytes (hs.flatMap bytesOfHalf) = hs := by
  induction hs with
  | nil => rfl
  | cons h hs ih => rw [List.flatMap_cons, halvesOfBytes_bytesOfHalf_append, ih]

theorem frameOfBytes_bytes (f : Frame) : frameOfBytes (Transaction.cap f).bytes = some f := by
  rw [Transaction.bytes, frameOfBytes_bytesOfWord_append, halvesOfBytes_flatMap]

/-- Settles O7: the bytes are the word's digits to the base 256, and joining them gives the word back. -/
theorem byteTransportIsLittleEndian : Obligations.ByteTransportIsLittleEndian :=
  ⟨bytesOfWord_eq_div, bytesOfHalf_eq_div, wordsOfBytes_flatMap, frameOfBytes_bytes⟩

end Sys2Proof
end

section
/-! PROOFS. What a step runs where one port alone is ready (spec/20_memory.md R66, R67, R75; log 11): it is that port's
agent's turn, and the agent takes the transaction at the head of the port. -/

namespace Sys2Proof.Machine

open Sys2Proof Sys2Proof.Claims

variable {F : Type}

/-! ## What the ports offer -/

theorem State.commandReady_of_command {s : State F} {i : Instr} {rest : List Word}
    (h : decode s.ctrl = .command i rest) : s.commandReady = true := by
  simp [State.commandReady, h]

theorem State.frameReady_of_running {s : State F} {f : Frame} {rest : List Frame} (hrun : s.run = .running)
    (hcap : s.cap = f :: rest) : s.frameReady = true := by
  simp [State.frameReady, hrun, hcap]

/-- Without a FRAME_MAX a frame whose count agrees with its samples is in the input domain (R95). -/
theorem decodeFrame_of_wf {f : Frame} (h : f.wf = true) : decodeFrame none f = some (.frame f.count f.samples) := by
  simp [decodeFrame, h]

/-! ## The agents' steps -/

theorem State.controlStep_command {meaning : Instr → State F → Result F} {s : State F} {i : Instr} {rest : List Word}
    (h : decode s.ctrl = .command i rest) : s.controlStep meaning = meaning i (s.tookCommand rest) := by
  unfold State.controlStep
  rw [h]

theorem State.workerStep_frame {frameMax : Option Nat} {meaning : Instr → State F → Result F} {s : State F} {f : Frame}
    {rest : List Frame} {i : Instr} (hrun : s.run = .running) (hcap : s.cap = f :: rest)
    (h : decodeFrame frameMax f = some i) : s.workerStep frameMax meaning = meaning i (s.tookFrame rest) := by
  unfold State.workerStep
  rw [if_pos hrun, hcap]
  dsimp only
  rw [h]

theorem step_of_turn_control {s s' : State} (h : s.turn = .control s') : step s = s'.controlStep exec := by
  unfold step State.stepBy
  rw [h]

theorem step_of_turn_worker {s s' : State} (h : s.turn = .worker s') :
    step s = s'.workerStep theParams.frameMax exec := by
  unfold step State.stepBy
  rw [h]

/-- Settles O9: where one port alone is ready it is its agent's turn, and the agent takes the head of the port. -/
theorem stepRunsTheDecodedInstruction : Obligations.StepRunsTheDecodedInstruction := by
  constructor
  · intro s i rest hframe hdecode
    calc step s
        = s.controlStep exec :=
          step_of_turn_control (State.turn_control (State.commandReady_of_command hdecode) hframe)
      _ = exec i (commandTaken s rest) := State.controlStep_command hdecode
  · intro s f rest hcommand hrun hcap hwf
    calc step s
        = s.workerStep theParams.frameMax exec :=
          step_of_turn_worker (State.turn_worker hcommand (State.frameReady_of_running hrun hcap))
      _ = exec (.frame f.count f.samples) (frameTaken s rest) :=
          State.workerStep_frame hrun hcap (decodeFrame_of_wf hwf)

end Sys2Proof.Machine
end

section
/-! PROOFS. What a FRAME latches and leaves (spec/48_stream_processor.md R238, R240): the parameters that an APPLY
published hold from the first sample of the next frame on (spec/20_memory.md R74). -/

namespace Sys2Proof.Machine

open Sys2Proof Sys2Proof.Claims

variable {F : Type}

/-! ## The latch -/

theorem State.latched_of_pend {p : Params F} {s : State F} (h : s.pend = true) : s.latched p = s.derive p := if_pos h

theorem State.latched_of_not_pend {p : Params F} {s : State F} (h : s.pend = false) : s.latched p = s :=
  if_neg (by simp [h])

theorem State.latched_latched (p : Params F) (s : State F) : (s.latched p).latched p = s.latched p := by
  obtain ⟨-, -, hpend⟩ := s.latched_control p
  exact State.latched_of_not_pend hpend

/-- While Running all that a FRAME sees of a state is what its latch leaves (R238). -/
theorem execFrameWith_latched [DecidableEq F] {p : Params F} {n : Word} {ss : List Half} {s : State F}
    (hrun : s.run = .running) : execFrameWith p n ss (s.latched p) = execFrameWith p n ss s := by
  obtain ⟨hrun', -, -⟩ := s.latched_control p
  unfold execFrameWith
  rw [if_pos hrun, if_pos (hrun'.trans hrun), State.latched_latched]

/-! ## The preset of a stream is left alone by its samples -/

theorem State.filters_pc (N : Num F) (s : State F) (us : List (Fin 9)) (v : F) : (s.filters N us v).1.pc = s.pc := by
  rw [State.filters_frame]

theorem State.eqStage_pc (p : Params F) (s : State F) (v : F) : (s.eqStage p v).1.pc = s.pc := by
  unfold State.eqStage
  split
  · exact s.filters_pc ..
  · rfl

section

variable [DecidableEq F]

theorem State.sample_pc {p : Params F} {s t : State F} {x q : Half} (hs : s.sample p x = .ok (t, q)) : t.pc = s.pc := by
  obtain ⟨e, f, s3, v3, m, v, s5, v5, s6, v6, rfl, rfl, h3, rfl, rfl, h5, h6, rfl, -⟩ := State.sample_ok hs
  obtain ⟨ps, -, rfl⟩ := State.shift_ok.1 h3
  obtain ⟨cb, -, rfl⟩ := State.reverb_ok.1 h5
  obtain ⟨ec, -, rfl⟩ := State.echo_ok.1 h6
  exact (State.filters_pc ..).trans ((State.filters_pc ..).trans (State.eqStage_pc ..))

theorem State.samples_pc {p : Params F} {xs : List Half} : ∀ {s t : State F} {qs : List Half},
    s.samples p xs = .ok (t, qs) → t.pc = s.pc := by
  induction xs with
  | nil =>
    intro s t qs h
    cases h
    rfl
  | cons x xs ih =>
    intro s t qs h
    obtain ⟨u, q, qs', h1, h2, -⟩ := State.samples_cons_ok.1 h
    exact (ih h2).trans (State.sample_pc h1)

/-- What a FRAME while Running can do: the latch, and after it perhaps a level event, the samples and a frame. -/
theorem execFrameWith_running_next {p : Params F} {n : Word} {ss : List Half} {s t : State F} (hrun : s.run = .running)
    (h : execFrameWith p n ss s = .next t) :
    t = s.latched p ∨ ∃ o o' u qs, ((s.latched p).emit o).samples p ss = .ok (u, qs) ∧ t = u.emit o' := by
  rw [← execFrameWith_latched hrun] at h
  rcases execFrameWith_next h with rfl | ⟨-, hnext⟩
  · exact .inl rfl
  · rwa [State.latched_latched] at hnext

/-- A FRAME while Running leaves the parameters and the preset as its latch does (R238). -/
theorem execFrameWith_running_control {p : Params F} {n : Word} {ss : List Half} {s t : State F}
    (hrun : s.run = .running) (h : execFrameWith p n ss s = .next t) :
    SameControl (s.latched p) t ∧ t.pc = (s.latched p).pc := by
  rcases execFrameWith_running_next hrun h with rfl | ⟨o, o', u, qs, hsamples, rfl⟩
  · exact ⟨.refl _, rfl⟩
  · have hpc : u.pc = (s.latched p).pc := (State.samples_pc hsamples).trans (State.emit_pc _ o)
    exact ⟨(((SameControl.refl _).emit o).trans (sameControl_samples hsamples)).emit o', hpc⟩

end

/-! ## APPLY and the frame after it -/

/-- An APPLY of finite operands publishes its clamped snapshot and leaves it to the next frame (R234). -/
theorem exec_apply_of_wf {a : DspParameters} (ha : a.wf = true) (s : State) :
    exec (.apply a) s = .next (State.respond .ok 0#32 { s with snap := clamped theParams a, pend := true }) :=
  State.guarded_pass (by simp [ha])

theorem clamped_pitchRatio (a : DspParameters) :
    (clamped theParams a).pitchRatio = clampTo ⟨0x3F000000#32⟩ ⟨0x40000000#32⟩ a.pitchRatio := by
  rw [← theParams_pitchMin, ← theParams_pitchMax]
  rfl

theorem clamped_volume (a : DspParameters) :
    (clamped theParams a).volume = clampTo NUM.zero NUM.one a.volume := rfl

/-- Settles O48: APPLY sets PEND, so the frame latches, and it leaves what the latch derives from the new snapshot. -/
theorem applyReachesTheNextFrame : Obligations.ApplyReachesTheNextFrame := by
  intro s s1 t a n ss ha hrun happly hframe
  have hs1 := (Host.Outcome.next.inj ((exec_apply_of_wf ha s).symm.trans happly)).symm
  have hrun1 : s1.run = .running := by rw [hs1]; exact hrun
  have hsnap : s1.snap = clamped theParams a := by rw [hs1]; rfl
  have hlatched : s1.latched theParams = s1.derive theParams := State.latched_of_pend (by rw [hs1]; rfl)
  rw [exec_eq] at hframe ⊢
  obtain ⟨hcontrol, hpc⟩ := execFrameWith_running_control hrun1 hframe
  rw [hlatched] at hcontrol hpc
  refine ⟨by rw [hs1]; rfl, by rw [hs1]; rfl, by rw [hs1]; rfl, by rw [hs1]; rfl, ?_, hcontrol.pend, ?_, ?_, ?_⟩
  · rw [← hlatched]
    exact (execFrameWith_latched hrun1).trans hframe
  · rw [hcontrol.act, State.derive_act, hsnap]
    exact clamped_pitchRatio a
  · rw [hcontrol.act, State.derive_act, hsnap]
    exact clamped_volume a
  · rw [hpc, State.derive_pc, hsnap]
    rfl

end Sys2Proof.Machine
end

section
/-! PROOFS. The decoder and the encoder of CTRL (spec/30_encoding.md R90 to R107): what a whole command looks like to
the decoder, and that it looks so exactly when its words are the encoding of a well-formed instruction. -/

namespace Sys2Proof

open Sys2Proof.Claims

/-! ## Opcodes -/

theorem Opcode.ofBits_bits (o : Opcode) : Opcode.ofBits o.bits = some o := by cases o <;> rfl

theorem Opcode.bits_injective {o o' : Opcode} (h : o.bits = o'.bits) : o = o' :=
  Option.some.inj (by rw [← o.ofBits_bits, h, o'.ofBits_bits])

theorem Opcode.ofBits_eq_some {b : BitVec 8} {o : Opcode} : Opcode.ofBits b = some o ↔ b = o.bits := by
  constructor
  · intro h
    have hbits : (o.bits == b) = true := List.find?_some (p := fun o : Opcode => o.bits == b) h
    exact (eq_of_beq hbits).symm
  · rintro rfl
    exact o.ofBits_bits

/-- The lengths that R103 prints are those of the assigned opcodes, and an unassigned one has none (R106). -/
theorem payloadWords_eq (b : BitVec 8) (imm : BitVec 16) :
    payloadWords b.toNat imm.toNat = (Opcode.ofBits b).map (·.payloadLength imm) := by
  cases h : Opcode.ofBits b with
  | some o =>
    rw [Opcode.ofBits_eq_some.mp h]
    cases o <;> rfl
  | none =>
    have unassigned : ∀ o ∈ Opcode.all, b.toNat ≠ o.bits.toNat := fun o _ he => by
      rw [BitVec.eq_of_toNat_eq he, o.ofBits_bits] at h
      cases h
    simp_all [payloadWords, Opcode.all, Opcode.bits]

/-! ## Fields of a command word (R90) -/

@[simp] theorem opField_commandWord (o : Opcode) (u : BitVec 8) (imm : BitVec 16) :
    opField (commandWord o u imm) = o.bits := by
  rw [opField, commandWord, BitVec.extractLsb'_append_eq_of_le (by decide)]
  exact BitVec.extractLsb'_append_eq_left

@[simp] theorem unitField_commandWord (o : Opcode) (u : BitVec 8) (imm : BitVec 16) :
    unitField (commandWord o u imm) = u := by
  rw [unitField, commandWord, BitVec.extractLsb'_append_eq_of_le (by decide)]
  exact BitVec.extractLsb'_append_eq_right

@[simp] theorem immField_commandWord (o : Opcode) (u : BitVec 8) (imm : BitVec 16) :
    immField (commandWord o u imm) = imm :=
  BitVec.extractLsb'_append_eq_right

theorem commandWord_fields {o : Opcode} {w : Word} (h : opField w = o.bits) :
    commandWord o (unitField w) (immField w) = w := by
  rw [commandWord, ← h, opField, unitField, immField,
    BitVec.extractLsb'_append_extractLsb'_eq_extractLsb' (by rfl),
    BitVec.extractLsb'_append_extractLsb'_eq_extractLsb' (by rfl)]
  exact BitVec.extractLsb'_eq_self

/-- The mask of a field that must be zero keeps all its bits. -/
@[simp] theorem and_unitMask (u : BitVec 8) : u &&& 0xFF#8 = u := BitVec.and_allOnes

@[simp] theorem and_immMask (imm : BitVec 16) : imm &&& 0xFFFF#16 = imm := BitVec.and_allOnes

/-- A command word without operands in its fields. -/
theorem commandWord_of_clear {o : Opcode} {w : Word} (h : opField w = o.bits) (hu : unitField w &&& 0xFF#8 = 0#8)
    (himm : immField w &&& 0xFFFF#16 = 0#16) : commandWord o 0#8 0#16 = w := by
  have hw := commandWord_fields h
  rw [and_unitMask] at hu
  rw [and_immMask] at himm
  rwa [hu, himm] at hw

/-- A command word with a unit index alone (R97). -/
theorem commandWord_of_unit {o : Opcode} {w : Word} (h : opField w = o.bits)
    (himm : immField w &&& 0xFFFF#16 = 0#16) : commandWord o (unitField w) 0#16 = w := by
  have hw := commandWord_fields h
  rw [and_immMask] at himm
  rwa [himm] at hw

/-- A command word with an immediate alone. -/
theorem commandWord_of_imm {o : Opcode} {w : Word} (h : opField w = o.bits) (hu : unitField w &&& 0xFF#8 = 0#8) :
    commandWord o 0#8 (immField w) = w := by
  have hw := commandWord_fields h
  rw [and_unitMask] at hu
  rwa [hu] at hw

theorem fieldsClear_iff {o : Opcode} {w : Word} :
    fieldsClear o w = true ↔ unitField w &&& o.unitMask = 0#8 ∧ immField w &&& o.immMask = 0#16 := by
  simp [fieldsClear]

/-- START's immediate is its bit 0 (R99). -/
theorem startImm_eq {imm : BitVec 16} (h : imm &&& 0xFFFE#16 = 0#16) :
    (BitVec.ofBool (imm.getLsbD 0)).setWidth 16 = imm := by
  calc (BitVec.ofBool (imm.getLsbD 0)).setWidth 16
      = imm &&& 0xFFFE#16 ||| imm &&& 1#16 := by
        rw [h, BitVec.zero_or, BitVec.and_one_eq_setWidth_ofBool_getLsbD]
    _ = imm := by rw [← BitVec.and_or_distrib_left]; exact and_immMask imm

/-- The decoder's masks clear every bit that R105 reserves. -/
theorem reservedBitSet_of_clear {o : Opcode} {w : Word} (hop : opField w = o.bits) (h : fieldsClear o w = true) :
    reservedBitSet w = false := by
  obtain ⟨hu, himm⟩ := fieldsClear_iff.mp h
  cases o with
  | start =>
    have hbits : (immField w).extractLsb' 1 15 = 0#15 := by
      rw [← startImm_eq himm]
      cases (immField w).getLsbD 0 <;> rfl
    simp_all [reservedBitSet, Opcode.bits, Opcode.unitMask]
  | _ => simp_all [reservedBitSet, Opcode.bits, Opcode.unitMask, Opcode.immMask]

/-! ## Payload words (R92) -/

theorem whenFinite_eq_ok {fs : List Word} {i j : Instr} :
    whenFinite fs i = .ok j ↔ finiteWords fs = true ∧ j = i := by
  cases h : finiteWords fs <;> simp [whenFinite, h, eq_comm]

theorem whenFinite_of_finite {fs : List Word} (h : finiteWords fs = true) (i : Instr) : whenFinite fs i = .ok i :=
  if_pos h

@[simp] theorem sampleOfWord_wordOfSample (h : Half) : sampleOfWord (wordOfSample h) = h := by
  ext i hi
  have hi32 : i < 32 := by omega
  rw [sampleOfWord, BitVec.getElem_extractLsb', wordOfSample, BitVec.getLsbD_signExtend]
  simp [hi, hi32]

@[simp] theorem sampleWordOk_wordOfSample (h : Half) : sampleWordOk (wordOfSample h) = true :=
  beq_iff_eq.mpr (congrArg wordOfSample (sampleOfWord_wordOfSample h)).symm

theorem wordOfSample_sampleOfWord {w : Word} (h : sampleWordOk w = true) : wordOfSample (sampleOfWord w) = w :=
  (eq_of_beq h).symm

@[simp] theorem flagsOk_flagsWord (reverb echo : Bool) : flagsOk (flagsWord reverb echo) = true := by
  cases reverb <;> cases echo <;> rfl

@[simp] theorem flagsWord_bit_zero (reverb echo : Bool) : (flagsWord reverb echo)[0] = reverb := by
  cases reverb <;> cases echo <;> rfl

@[simp] theorem flagsWord_bit_one (reverb echo : Bool) : (flagsWord reverb echo)[1] = echo := by
  cases reverb <;> cases echo <;> rfl

theorem flagsWord_of_flagsOk {w : Word} (h : flagsOk w = true) : flagsWord w[0] w[1] = w := by
  have hnat : w.toNat / 4 % 2 ^ 30 = 0 := by
    simpa [Nat.shiftRight_eq_div_pow] using congrArg BitVec.toNat (eq_of_beq h)
  have hcases : w = 0#32 ∨ w = 1#32 ∨ w = 2#32 ∨ w = 3#32 := by bv_omega
  rcases hcases with rfl | rfl | rfl | rfl <;> rfl

/-! ## APPLY's payload (R100) -/

theorem vector_eq_five {α : Type} (v : Vector α 5) : v = #v[v[0], v[1], v[2], v[3], v[4]] := by
  ext i hi
  interval_cases i <;> rfl

theorem DspParameters.finiteWords_of_wf {p : DspParameters} (h : p.wf = true) :
    finiteWords [p.eq[0].gainDb.bits, p.eq[1].gainDb.bits, p.eq[2].gainDb.bits, p.eq[3].gainDb.bits,
      p.eq[4].gainDb.bits, p.pitchRatio.bits, p.reverbWet.bits, p.echoFeedback.bits, p.volume.bits] = true := by
  rw [DspParameters.wf, vector_eq_five p.eq] at h
  simpa [finiteWords, and_assoc] using h

theorem decodeApply_encodeApply {p : DspParameters} (h : p.wf = true) :
    decodeApply (encodeApply p) = .ok (.apply p) := by
  have hread := whenFinite_of_finite (DspParameters.finiteWords_of_wf h)
  simp only [decodeApply, encodeApply, flagsOk_flagsWord, if_true, hread]
  rw [← vector_eq_five]
  simp

theorem decodeApply_ok {ps : List Word} {i : Instr} (h : decodeApply ps = .ok i) :
    ∃ p, i = .apply p ∧ p.wf = true ∧ ps = encodeApply p := by
  unfold decodeApply at h
  split at h
  · split at h
    · next hflags =>
      obtain ⟨hfinite, rfl⟩ := whenFinite_eq_ok.mp h
      refine ⟨_, rfl, ?_, ?_⟩
      · simpa [DspParameters.wf, finiteWords, and_assoc] using hfinite
      · simp [encodeApply, flagsWord_of_flagsOk hflags]
    · cases h
  · cases h

theorem decodeOperands_lmFrame (w : Word) (ss : List Word) : decodeOperands .lmFrame w ss =
    if ss.all sampleWordOk then .ok (.lmFrame (ss.map sampleOfWord)) else .error .malformedSample := by
  cases ss <;> rfl

/-! ## What a whole command looks like to the decoder -/

/-- A command word of this opcode with clear reserved fields and a payload of the length R103 gives it, whose operands
are read as the instruction. -/
structure ReadsAs (o : Opcode) (w : Word) (payload : List Word) (i : Instr) : Prop where
  opcode : opField w = o.bits
  clear : fieldsClear o w = true
  length : payload.length = o.payloadLength (immField w)
  operands : decodeOperands o w payload = .ok i

theorem decode_of_unassigned {w : Word} {ws : List Word} (h : Opcode.ofBits (opField w) = none) :
    decode (w :: ws) = .illegal .unassignedOpcode ws := by
  rw [decode, h]

section

variable {o : Opcode} {w : Word} {ws : List Word}

/-- A command whose payload is not all offered is not read (log 11). -/
theorem decode_of_short (ho : Opcode.ofBits (opField w) = some o) (h : ws.length < o.payloadLength (immField w)) :
    decode (w :: ws) = .incomplete := by
  simp only [decode, ho, if_pos h]

theorem decode_of_read {i : Instr} (ho : Opcode.ofBits (opField w) = some o)
    (h : o.payloadLength (immField w) ≤ ws.length)
    (hread : decodeCommand o w (ws.take (o.payloadLength (immField w))) = .ok i) :
    decode (w :: ws) = .command i (ws.drop (o.payloadLength (immField w))) := by
  simp only [decode, ho, if_neg (Nat.not_lt.mpr h), hread]

theorem decode_of_error {e : DecodeError} (ho : Opcode.ofBits (opField w) = some o)
    (h : o.payloadLength (immField w) ≤ ws.length)
    (hread : decodeCommand o w (ws.take (o.payloadLength (immField w))) = .error e) :
    decode (w :: ws) = .illegal e (ws.drop (o.payloadLength (immField w))) := by
  simp only [decode, ho, if_neg (Nat.not_lt.mpr h), hread]

theorem decodeCommand_eq_ok {payload : List Word} {i : Instr} :
    decodeCommand o w payload = .ok i ↔ fieldsClear o w = true ∧ decodeOperands o w payload = .ok i := by
  unfold decodeCommand
  split <;> simp_all

theorem ReadsAs.decode_append {payload : List Word} {i : Instr} (h : ReadsAs o w payload i)
    (rest : List Word) : decode (w :: (payload ++ rest)) = .command i rest := by
  have hread : decodeCommand o w payload = .ok i := decodeCommand_eq_ok.mpr ⟨h.clear, h.operands⟩
  have h' := decode_of_read (ws := payload ++ rest) (Opcode.ofBits_eq_some.mpr h.opcode) (by simp [← h.length])
    (by rwa [← h.length, List.take_left])
  rwa [← h.length, List.drop_left] at h'

theorem ReadsAs.of_decode {rest : List Word} {i : Instr} (h : decode (w :: ws) = .command i rest) :
    ∃ o payload, ReadsAs o w payload i ∧ ws = payload ++ rest := by
  cases ho : Opcode.ofBits (opField w) with
  | none => cases (decode_of_unassigned ho).symm.trans h
  | some o =>
    rcases Nat.lt_or_ge ws.length (o.payloadLength (immField w)) with hshort | hlength
    · cases (decode_of_short ho hshort).symm.trans h
    · cases hread : decodeCommand o w (ws.take (o.payloadLength (immField w))) with
      | error e => cases (decode_of_error ho hlength hread).symm.trans h
      | ok j =>
        obtain ⟨rfl, rfl⟩ := Decoded.command.inj ((decode_of_read ho hlength hread).symm.trans h)
        obtain ⟨hclear, hoperands⟩ := decodeCommand_eq_ok.mp hread
        exact ⟨o, _, ⟨Opcode.ofBits_eq_some.mp ho, hclear, List.length_take_of_le hlength, hoperands⟩,
          (List.take_append_drop ..).symm⟩

end

/-! ## The encoding is read back -/

theorem decode_commandWord_append {o : Opcode} {u : BitVec 8} {imm : BitVec 16} {payload rest : List Word} {i : Instr}
    (hu : u &&& o.unitMask = 0#8) (himm : imm &&& o.immMask = 0#16) (hlength : payload.length = o.payloadLength imm)
    (hoperands : ∀ w, unitField w = u → immField w = imm → decodeOperands o w payload = .ok i) :
    decode (commandWord o u imm :: payload ++ rest) = .command i rest := by
  have hu' : unitField (commandWord o u imm) = u := unitField_commandWord ..
  have himm' : immField (commandWord o u imm) = imm := immField_commandWord ..
  exact ReadsAs.decode_append ⟨opField_commandWord .., fieldsClear_iff.mpr ⟨by rwa [hu'], by rwa [himm']⟩,
    by rwa [himm'], hoperands _ hu' himm'⟩ rest

/-- The words of a well-formed command are read as it, whatever follows them. -/
theorem decode_encode_append {i : Instr} (hwf : i.wf = true) {cmd : List Word} (h : encode i = .ctrl cmd)
    (rest : List Word) : decode (cmd ++ rest) = .command i rest := by
  cases i with
  | frame n ss => cases h
  | start ok sr =>
    cases h
    refine decode_commandWord_append rfl ?_ rfl ?_
    · cases ok <;> rfl
    · rintro w - himm
      change Except.ok (Instr.start ((immField w).getLsbD 0) sr) = _
      rw [himm]
      cases ok <;> rfl
  | stop => cases h; exact decode_commandWord_append rfl rfl rfl fun _ _ _ => rfl
  | apply p => cases h; exact decode_commandWord_append rfl rfl rfl fun _ _ _ => decodeApply_encodeApply hwf
  | bqByp u => cases h; exact decode_commandWord_append BitVec.and_zero rfl rfl (by rintro w rfl -; rfl)
  | vpLoad preset => cases h; exact decode_commandWord_append rfl BitVec.and_zero rfl (by rintro w - rfl; rfl)
  | psInit n | rvInit n | ecInit n | vmInit n =>
    cases h
    exact decode_commandWord_append rfl rfl rfl fun _ _ _ => rfl
  | bqPeak u f g q sr =>
    cases h
    have hfinite : finiteWords [f.bits, g.bits, q.bits] = true := by simpa [finiteWords, Instr.wf, and_assoc] using hwf
    exact decode_commandWord_append BitVec.and_zero rfl rfl (by rintro w rfl -; exact whenFinite_of_finite hfinite _)
  | bqLsh u f g sr | bqHsh u f g sr =>
    cases h
    have hfinite : finiteWords [f.bits, g.bits] = true := by simpa [finiteWords, Instr.wf, and_assoc] using hwf
    exact decode_commandWord_append BitVec.and_zero rfl rfl (by rintro w rfl -; exact whenFinite_of_finite hfinite _)
  | bqProc u x | cbProc u x | cbInit u _ x =>
    cases h
    have hfinite : finiteWords [x.bits] = true := by simpa [finiteWords, Instr.wf, and_assoc] using hwf
    exact decode_commandWord_append BitVec.and_zero rfl rfl (by rintro w rfl -; exact whenFinite_of_finite hfinite _)
  | psProc x y | rvProc x y | ecCfg d x y =>
    cases h
    have hfinite : finiteWords [x.bits, y.bits] = true := by simpa [finiteWords, Instr.wf, and_assoc] using hwf
    exact decode_commandWord_append rfl rfl rfl fun _ _ _ => whenFinite_of_finite hfinite _
  | ecProc x | vmProc x =>
    cases h
    have hfinite : finiteWords [x.bits] = true := by simpa [finiteWords, Instr.wf, and_assoc] using hwf
    exact decode_commandWord_append rfl rfl rfl fun _ _ _ => whenFinite_of_finite hfinite _
  | lmFrame ss =>
    cases h
    have hlength : (BitVec.ofNat 16 ss.length).toNat = ss.length := Nat.mod_eq_of_lt (of_decide_eq_true hwf)
    refine decode_commandWord_append rfl BitVec.and_zero ((List.length_map _).trans hlength.symm) fun w _ _ => ?_
    rw [decodeOperands_lmFrame]
    simp [List.all_map, Function.comp_def]

/-! ## What is read is the encoding -/

/-- What is read as an instruction is the encoding of it, which is well formed. -/
theorem ReadsAs.encode_eq {o : Opcode} {w : Word} {payload : List Word} {i : Instr} (h : ReadsAs o w payload i) :
    i.wf = true ∧ encode i = .ctrl (w :: payload) := by
  obtain ⟨hop, hclear, hlength, hoperands⟩ := h
  obtain ⟨hu, himm⟩ := fieldsClear_iff.mp hclear
  have written {c : Word} (hc : c = w) : Transaction.ctrl (c :: payload) = .ctrl (w :: payload) := by rw [hc]
  cases o with
  | start =>
    obtain ⟨sr, rfl⟩ := List.length_eq_one_iff.mp hlength
    cases hoperands
    exact ⟨rfl, written (by rw [startImm_eq himm]; exact commandWord_of_imm hop hu)⟩
  | apply =>
    obtain ⟨p, rfl, hwf, rfl⟩ := decodeApply_ok hoperands
    exact ⟨hwf, written (commandWord_of_clear hop hu himm)⟩
  | stop =>
    obtain rfl := List.length_eq_zero_iff.mp hlength
    cases hoperands
    exact ⟨rfl, written (commandWord_of_clear hop hu himm)⟩
  | bqByp =>
    obtain rfl := List.length_eq_zero_iff.mp hlength
    cases hoperands
    exact ⟨rfl, written (commandWord_of_unit hop himm)⟩
  | vpLoad =>
    obtain rfl := List.length_eq_zero_iff.mp hlength
    cases hoperands
    exact ⟨rfl, written (commandWord_of_imm hop hu)⟩
  | psInit | rvInit | ecInit | vmInit =>
    obtain ⟨n, rfl⟩ := List.length_eq_one_iff.mp hlength
    cases hoperands
    exact ⟨rfl, written (commandWord_of_clear hop hu himm)⟩
  | bqPeak =>
    obtain ⟨f, gqs, rfl⟩ := List.exists_cons_of_length_eq_add_one hlength
    obtain ⟨g, q, sr, rfl⟩ := List.length_eq_three.mp (Nat.succ.inj hlength)
    obtain ⟨hfinite, rfl⟩ := whenFinite_eq_ok.mp hoperands
    exact ⟨by simpa [finiteWords, Instr.wf, and_assoc] using hfinite, written (commandWord_of_unit hop himm)⟩
  | bqLsh | bqHsh =>
    obtain ⟨f, g, sr, rfl⟩ := List.length_eq_three.mp hlength
    obtain ⟨hfinite, rfl⟩ := whenFinite_eq_ok.mp hoperands
    exact ⟨by simpa [finiteWords, Instr.wf, and_assoc] using hfinite, written (commandWord_of_unit hop himm)⟩
  | bqProc | cbProc =>
    obtain ⟨x, rfl⟩ := List.length_eq_one_iff.mp hlength
    obtain ⟨hfinite, rfl⟩ := whenFinite_eq_ok.mp hoperands
    exact ⟨by simpa [finiteWords, Instr.wf, and_assoc] using hfinite, written (commandWord_of_unit hop himm)⟩
  | cbInit =>
    obtain ⟨len, fb, rfl⟩ := List.length_eq_two.mp hlength
    obtain ⟨hfinite, rfl⟩ := whenFinite_eq_ok.mp hoperands
    exact ⟨by simpa [finiteWords, Instr.wf, and_assoc] using hfinite, written (commandWord_of_unit hop himm)⟩
  | psProc | rvProc =>
    obtain ⟨x, y, rfl⟩ := List.length_eq_two.mp hlength
    obtain ⟨hfinite, rfl⟩ := whenFinite_eq_ok.mp hoperands
    exact ⟨by simpa [finiteWords, Instr.wf, and_assoc] using hfinite, written (commandWord_of_clear hop hu himm)⟩
  | ecCfg =>
    obtain ⟨d, x, y, rfl⟩ := List.length_eq_three.mp hlength
    obtain ⟨hfinite, rfl⟩ := whenFinite_eq_ok.mp hoperands
    exact ⟨by simpa [finiteWords, Instr.wf, and_assoc] using hfinite, written (commandWord_of_clear hop hu himm)⟩
  | ecProc | vmProc =>
    obtain ⟨x, rfl⟩ := List.length_eq_one_iff.mp hlength
    obtain ⟨hfinite, rfl⟩ := whenFinite_eq_ok.mp hoperands
    exact ⟨by simpa [finiteWords, Instr.wf, and_assoc] using hfinite, written (commandWord_of_clear hop hu himm)⟩
  | lmFrame =>
    rw [decodeOperands_lmFrame] at hoperands
    split at hoperands
    case isFalse => cases hoperands
    case isTrue hsamples =>
      cases hoperands
      change payload.length = (immField w).toNat at hlength
      have hcount : BitVec.ofNat 16 (payload.map sampleOfWord).length = immField w := by simp [hlength]
      have hpayload : (payload.map sampleOfWord).map wordOfSample = payload := by
        rw [List.map_map]
        exact List.map_congr_left (g := id) (fun x hx => wordOfSample_sampleOfWord (List.all_eq_true.mp hsamples x hx))
          |>.trans (List.map_id _)
      refine ⟨decide_eq_true ?_, ?_⟩
      · simpa [hlength] using (immField w).isLt
      · rw [encode, hcount, hpayload]
        exact written (commandWord_of_imm hop hu)

theorem decode_encode {i : Instr} (hwf : i.wf = true) {cmd : List Word} (h : encode i = .ctrl cmd) :
    decode cmd = .command i [] := by
  rw [← decode_encode_append hwf h [], List.append_nil]

/-- Settles O1: the words of a well-formed command are read as it, and a frame's count agrees with its samples. -/
theorem decodeOfEncodeIsIdentity : Obligations.DecodeOfEncodeIsIdentity := by
  intro i hwf
  cases h : encode i with
  | ctrl cmd => rw [decodeTransaction, decode_encode hwf h]
  | cap f =>
    cases i with
    | frame n ss => cases h; exact Machine.decodeFrame_of_wf hwf
    | _ => cases h

/-- Settles O2: a command that is read has clear reserved fields and a whole payload, and each kind is its encoding. -/
theorem decodedWordsAreTheEncoding : Obligations.DecodedWordsAreTheEncoding := by
  intro ws i rest h
  cases ws with
  | nil => cases h
  | cons w ws =>
    obtain ⟨o, payload, hreads, rfl⟩ := ReadsAs.of_decode h
    obtain ⟨hwf, hencode⟩ := hreads.encode_eq
    exact ⟨hwf, w :: payload, hencode, rfl⟩

end Sys2Proof
end

section
/-! PROOFS. What CTRL answers to words that are no encoding (spec/30_encoding.md R103 to R107): the payload is consumed,
and the step answers ERR_ILLEGAL. -/

namespace Sys2Proof.Machine

open Sys2Proof Sys2Proof.Claims

/-! ## How many words a command consumes -/

/-- Settles O3: the printed lengths are the decoder's, and it waits for a payload, then takes it, read or refused. -/
theorem payloadIsConsumedInFull : Obligations.PayloadIsConsumedInFull := by
  intro w ws
  rw [payloadWords_eq]
  cases ho : Opcode.ofBits (opField w) with
  | none => exact ⟨_, decode_of_unassigned ho⟩
  | some o =>
    refine ⟨decode_of_short ho, fun hlength => ?_⟩
    cases hread : decodeCommand o w (ws.take (o.payloadLength (immField w))) with
    | ok i => exact .inl ⟨i, decode_of_read ho hlength hread⟩
    | error e => exact .inr ⟨e, decode_of_error ho hlength hread⟩

/-! ## The step on words that are not read -/

theorem step_of_illegal {s : State} {e : DecodeError} {rest : List Word} (hframe : s.frameReady = false)
    (h : decode s.ctrl = .illegal e rest) : step s = .next (answered (commandTaken s rest) 0x80000000#32 0#32) := by
  have hready : s.commandReady = true := by simp [State.commandReady, h]
  rw [step_of_turn_control (State.turn_control hready hframe), State.controlStep, h]
  rfl

/-- Settles O4: the decoder finds no opcode with these bits and takes the word alone. -/
theorem unassignedOpcodeIsAnsweredIllegal : Obligations.UnassignedOpcodeIsAnsweredIllegal := by
  intro s w ws hctrl hframe hnone
  rw [payloadWords_eq, Option.map_eq_none_iff] at hnone
  exact step_of_illegal hframe (hctrl ▸ decode_of_unassigned hnone)

/-- A whole command that reads as no instruction is answered ERR_ILLEGAL after its payload (R103, R105). -/
theorem step_of_not_readsAs {s : State} {w : Word} {ws : List Word} {k : Nat} (hctrl : s.ctrl = w :: ws)
    (hframe : s.frameReady = false) (hk : payloadWords (opField w).toNat (immField w).toNat = some k)
    (hlength : k ≤ ws.length) (hnot : ∀ o payload rest i, ReadsAs o w payload i → ws ≠ payload ++ rest) :
    step s = .next (answered (commandTaken s (ws.drop k)) 0x80000000#32 0#32) := by
  have hconsumed := payloadIsConsumedInFull w ws
  rw [hk] at hconsumed
  obtain ⟨-, hwhole⟩ := hconsumed
  rcases hwhole hlength with ⟨i, hread⟩ | ⟨e, herror⟩
  · obtain ⟨o, payload, hreads, hws⟩ := ReadsAs.of_decode hread
    exact absurd hws (hnot o payload _ i hreads)
  · exact step_of_illegal hframe (hctrl ▸ herror)

/-! ## What every payload that is read keeps to -/

/-- The payload has the length that R103 prints. -/
theorem payloadWords_of_readsAs {o : Opcode} {w : Word} {payload : List Word} {i : Instr}
    (h : ReadsAs o w payload i) : payloadWords (opField w).toNat (immField w).toNat = some payload.length := by
  rw [payloadWords_eq, h.opcode, o.ofBits_bits, h.length]
  rfl

/-- The `B` word of APPLY (R105). -/
theorem flagsOk_of_readsAs {w : Word} {payload : List Word} {i : Instr} (h : ReadsAs .apply w payload i)
    (rest : List Word) : flagsOk ((payload ++ rest).getD 12 0#32) = true := by
  obtain ⟨p, -, -, rfl⟩ := decodeApply_ok h.operands
  exact flagsOk_flagsWord ..

/-- The `S` words of LM.FRAME (R105). -/
theorem sampleWordOk_of_readsAs {w : Word} {payload : List Word} {i : Instr} (h : ReadsAs .lmFrame w payload i)
    {x : Word} (hx : x ∈ payload) : sampleWordOk x = true := by
  have hoperands := h.operands
  rw [decodeOperands_lmFrame] at hoperands
  split at hoperands
  case isTrue hall => exact List.all_eq_true.mp hall x hx
  case isFalse => cases hoperands

theorem nonFiniteWord_eq (x : NUM) : nonFiniteWord x.bits = !x.isFinite := (Bool.not_not _).symm

/-- The `F` words of every command (R107), at the positions of R96. -/
theorem finite_of_encode {i : Instr} {w : Word} {payload : List Word} (hwf : i.wf = true)
    (h : encode i = .ctrl (w :: payload)) (rest : List Word) :
    ∀ j ∈ finitePositions (opField w).toNat, nonFiniteWord ((payload ++ rest).getD j 0#32) = false := by
  cases i with
  | frame n ss => cases h
  | apply p =>
    cases h
    simpa [finitePositions, Opcode.bits, encodeApply, nonFiniteWord_eq, finiteWords]
      using DspParameters.finiteWords_of_wf hwf
  | start _ _ | stop | bqByp _ | vpLoad _ | lmFrame _ | psInit _ | rvInit _ | ecInit _ | vmInit _ =>
    cases h
    simp [finitePositions, Opcode.bits]
  | bqPeak _ _ _ _ _ | bqLsh _ _ _ _ | bqHsh _ _ _ _ | bqProc _ _ | cbProc _ _ | cbInit _ _ _ | psProc _ _
  | rvProc _ _ | ecCfg _ _ _ | ecProc _ | vmProc _ =>
    cases h
    simpa [finitePositions, Opcode.bits, nonFiniteWord_eq, Instr.wf, and_assoc] using hwf

/-- Settles O5: what is read has clear reserved bits, a `B` word and `S` words in order, and the immediate of VP.LOAD
is read at every value. -/
theorem reservedFieldIsAnsweredIllegal : Obligations.ReservedFieldIsAnsweredIllegal := by
  constructor
  · intro s w ws k hctrl hframe hk hlength hbroken
    refine step_of_not_readsAs hctrl hframe hk hlength ?_
    rintro o payload rest i hreads rfl
    rcases hbroken with hbit | ⟨hop, hflags⟩ | ⟨hop, j, hj, hsample⟩
    · cases (reservedBitSet_of_clear hreads.opcode hreads.clear).symm.trans hbit
    · obtain rfl : o = .apply := Opcode.bits_injective (hreads.opcode.symm.trans (BitVec.eq_of_toNat_eq hop))
      exact hflags (eq_of_beq (flagsOk_of_readsAs hreads rest))
    · obtain rfl : o = .lmFrame := Opcode.bits_injective (hreads.opcode.symm.trans (BitVec.eq_of_toNat_eq hop))
      rw [payloadWords_of_readsAs hreads] at hk
      obtain rfl := Option.some.inj hk
      rw [List.getD_append _ _ _ _ hj, List.getD_eq_getElem _ _ hj] at hsample
      exact hsample (eq_of_beq (sampleWordOk_of_readsAs hreads (List.getElem_mem hj)))
  · intro imm rest
    exact decode_encode_append (i := .vpLoad imm) rfl rfl rest

/-- Settles O6: an `F` word of what is read is finite, and negative zero is. -/
theorem nonFiniteWordIsAnsweredIllegal : Obligations.NonFiniteWordIsAnsweredIllegal := by
  refine ⟨?_, rfl, fun u rest => decode_encode_append (i := .bqProc u ⟨0x80000000#32⟩) rfl rfl rest⟩
  intro s w ws k j hctrl hframe hk hlength hj hnonfinite
  refine step_of_not_readsAs hctrl hframe hk hlength ?_
  rintro o payload rest i hreads rfl
  obtain ⟨hwf, hencode⟩ := hreads.encode_eq
  cases (finite_of_encode hwf hencode rest j hj).symm.trans hnonfinite

/-- Settles O8: the printed words are the encodings of the commands printed beside them. -/
theorem printedWordsAreReadAsPrinted : Obligations.PrintedWordsAreReadAsPrinted :=
  ⟨decode_encode rfl rfl, decode_encode rfl rfl, decode_encode rfl rfl, decode_encode rfl rfl, decode_encode rfl rfl,
    decode_encode rfl rfl, decode_encode rfl rfl⟩

end Sys2Proof.Machine
end

section
/-! PROOFS. The responses of the commands (spec/30_encoding.md R94, R98): one for each command and none for FRAME, and
ERR_STATE for a direct unit operation outside Stopped. -/

namespace Sys2Proof.Machine

open Sys2Proof Sys2Proof.Claims

variable {F : Type}

/-! ## One response -/

/-- What has left the block since `s` is one response (R94). -/
def AnswersOnce (s t : State F) : Prop := ∃ st v, t.out = s.out ++ [.response (statusWord st) v]

theorem answersOnce_respond {s u : State F} (hu : u.out = s.out) (st : Status) (v : Word) :
    AnswersOnce s (u.respond st v) := ⟨st, v, by rw [State.respond_out, hu]⟩

theorem answersOnce_complete {s u t : State F} (hu : u.out = s.out) (h : complete u = .next t) : AnswersOnce s t := by
  rw [complete_next.mp h]
  exact answersOnce_respond hu ..

theorem answersOnce_completeValue {N : Num F} {r : Except Fault (State F × F)} {s t : State F}
    (hr : ∀ u y, r = .ok (u, y) → u.out = s.out) (h : completeValue N r = .next t) : AnswersOnce s t := by
  obtain ⟨u, y, hu, rfl⟩ := completeValue_next.mp h
  exact answersOnce_respond (hr u y hu) ..

theorem answersOnce_guarded {s t : State F} {checks : List (Bool × Status)} {act : Result F}
    (h : s.guarded checks act = .next t) (hact : act = .next t → AnswersOnce s t) : AnswersOnce s t :=
  State.guarded_induction h (fun e => answersOnce_respond rfl e 0#32) fun _ => hact

/-! ## The units emit nothing -/

theorem State.filters_out (N : Num F) (s : State F) (us : List (Fin 9)) (v : F) :
    (s.filters N us v).1.out = s.out := by
  rw [State.filters_frame]

theorem State.eqStage_out (p : Params F) (s : State F) (v : F) : (s.eqStage p v).1.out = s.out := by
  unfold State.eqStage
  split
  · exact s.filters_out ..
  · rfl

theorem State.latched_out (p : Params F) (s : State F) : (s.latched p).out = s.out := by
  unfold State.latched
  split <;> rfl

section

variable [DecidableEq F]

theorem State.shift_out {p : Params F} {s t : State F} {x ratio y : F} (h : s.shift p x ratio = .ok (t, y)) :
    t.out = s.out := by
  obtain ⟨ps, -, rfl⟩ := State.shift_ok.mp h
  rfl

theorem State.reverb_out {p : Params F} {s t : State F} {x wet y : F} (h : s.reverb p x wet = .ok (t, y)) :
    t.out = s.out := by
  obtain ⟨cb, -, rfl⟩ := State.reverb_ok.mp h
  rfl

theorem State.echo_out {N : Num F} {s t : State F} {x y : F} (h : s.echo N x = .ok (t, y)) : t.out = s.out := by
  obtain ⟨ec, -, rfl⟩ := State.echo_ok.mp h
  rfl

theorem State.comb_out {N : Num F} {s t : State F} {k : Fin 3} {x y : F} (h : s.comb N k x = .ok (t, y)) :
    t.out = s.out := by
  obtain ⟨c, -, rfl⟩ := State.comb_ok.mp h
  rfl

theorem State.sample_out {p : Params F} {s t : State F} {x q : Half} (hs : s.sample p x = .ok (t, q)) :
    t.out = s.out := by
  obtain ⟨e, f, s3, v3, m, v, s5, v5, s6, v6, rfl, rfl, h3, rfl, rfl, h5, h6, rfl, -⟩ := State.sample_ok hs
  calc t.out
      = s5.out := State.echo_out h6
    _ = _ := State.reverb_out h5
    _ = s3.out := State.filters_out ..
    _ = _ := State.shift_out h3
    _ = (s.eqStage p (pcmIn p x)).1.out := State.filters_out ..
    _ = s.out := State.eqStage_out ..

theorem State.samples_out {p : Params F} {xs : List Half} : ∀ {s t : State F} {qs : List Half},
    s.samples p xs = .ok (t, qs) → t.out = s.out := by
  induction xs with
  | nil =>
    intro s t qs h
    cases h
    rfl
  | cons x xs ih =>
    intro s t qs h
    obtain ⟨u, q, qs', h1, h2, -⟩ := State.samples_cons_ok.mp h
    exact (ih h2).trans (State.sample_out h1)

/-! ## What every operation emits -/

/-- Every command, completed or refused, answers once. -/
theorem execWith_answersOnce {p : Params F} {i : Instr} {s t : State F} (hi : isCommand i = true)
    (h : execWith p i s = .next t) : AnswersOnce s t := by
  have answered {N : Num F} {u : State F} {y : F} (hu : u.out = s.out) :
      completeValue N (.ok (u, y)) = .next t → AnswersOnce s t :=
    answersOnce_completeValue fun _ _ he => by cases he; exact hu
  cases i with
  | frame => cases hi
  | start ok sr =>
    refine answersOnce_guarded h fun hact => ?_
    split at hact
    · cases hact
      exact answersOnce_respond rfl ..
    · cases hact
      exact answersOnce_respond rfl ..
  | stop => exact answersOnce_complete (State.destroyed_out ..) h
  | apply _ | bqByp _ | bqPeak _ _ _ _ _ | bqLsh _ _ _ _ | bqHsh _ _ _ _ | psInit _ | cbInit _ _ _ | rvInit _
  | ecInit _ | ecCfg _ _ _ | vpLoad _ | vmInit _ => exact answersOnce_guarded h (answersOnce_complete rfl)
  | bqProc _ _ | vmProc _ | lmFrame _ => exact answersOnce_guarded h (answered rfl)
  | psProc _ _ => exact answersOnce_guarded h (answersOnce_completeValue fun _ _ => State.shift_out)
  | cbProc _ _ => exact answersOnce_guarded h (answersOnce_completeValue fun _ _ => State.comb_out)
  | rvProc _ _ => exact answersOnce_guarded h (answersOnce_completeValue fun _ _ => State.reverb_out)
  | ecProc _ => exact answersOnce_guarded h (answersOnce_completeValue fun _ _ => State.echo_out)

/-- A FRAME emits nothing, or a level event and an output frame (R238). -/
theorem execFrameWith_out {p : Params F} {n : Word} {ss : List Half} {s t : State F}
    (h : execFrameWith p n ss s = .next t) :
    t.out = s.out ∨ ∃ lv f, t.out = s.out ++ [.level lv, .played f] := by
  unfold execFrameWith at h
  split at h
  case isFalse =>
    cases h
    exact .inl rfl
  case isTrue =>
    dsimp only at h
    split at h
    case isTrue =>
      cases h
      exact .inl (State.latched_out ..)
    case isFalse =>
      split at h
      · cases h
      · next u qs hsamples =>
        cases h
        refine .inr ⟨p.encF32 (level p ss (i32 n)), ⟨n, qs⟩, ?_⟩
        rw [State.emit_out, State.samples_out hsamples, State.emit_out, State.latched_out, List.append_assoc]
        rfl

end

theorem statusWord_low (st : Status) : (statusWord st).extractLsb' 0 24 = 0#24 := BitVec.extractLsb'_append_eq_right

/-- Settles O14: a command answers once, completed or refused, and what a FRAME emits is no response. -/
theorem everyCommandAnswersOnce : Obligations.EveryCommandAnswersOnce := by
  intro i s t h
  rw [exec_eq] at h
  constructor
  · intro hi
    obtain ⟨st, v, hout⟩ := execWith_answersOnce hi h
    exact ⟨statusWord st, v, hout, statusWord_low st⟩
  · intro hi st v
    cases i with
    | frame n ss =>
      rcases execFrameWith_out h with hout | ⟨lv, f, hout⟩
      · exact ⟨[], by simpa using hout, by simp⟩
      · exact ⟨_, hout, by simp⟩
    | _ => cases hi

/-! ## Outside Stopped -/

theorem guarded_not_stopped {s : State F} {checks : List (Bool × Status)} {act : Result F} (hrun : s.run ≠ .stopped) :
    s.guarded (stoppedCheck s :: checks) act = .next (s.refuse .errState) :=
  State.guarded_refuse (by simp [stoppedCheck, hrun])

/-- The operands are checked before the run state (R267). -/
theorem guarded_finite_not_stopped {s : State F} {xs : List NUM} {checks : List (Bool × Status)} {act : Result F}
    (hfinite : xs.all NUM.isFinite = true) (hrun : s.run ≠ .stopped) :
    s.guarded (finiteCheck xs :: stoppedCheck s :: checks) act = .next (s.refuse .errState) :=
  State.guarded_refuse (by simp only [finiteCheck, stoppedCheck, firstFailing_cons, hfinite, hrun]; rfl)

/-- Settles O15: in each direct unit operation the run state is checked after the operands and before all else. -/
theorem unitOperationsNeedStopped : Obligations.UnitOperationsNeedStopped := by
  intro i s hunit hwf hrun
  change exec i s = .next (s.refuse .errState)
  cases i with
  | start _ _ | stop | apply _ | frame _ _ => cases hunit
  | psInit _ | rvInit _ | ecInit _ | vpLoad _ | vmInit _ | lmFrame _ => exact guarded_not_stopped hrun
  | bqByp u => exact guarded_finite_not_stopped rfl hrun
  | bqPeak _ f g q _ =>
    exact guarded_finite_not_stopped (xs := [f, g, q]) (by simpa [Instr.wf, and_assoc] using hwf) hrun
  | bqLsh _ x y _ | bqHsh _ x y _ | psProc x y | rvProc x y | ecCfg _ x y =>
    exact guarded_finite_not_stopped (xs := [x, y]) (by simpa [Instr.wf] using hwf) hrun
  | bqProc _ x | cbInit _ _ x | cbProc _ x | ecProc x | vmProc x =>
    exact guarded_finite_not_stopped (xs := [x]) (by simpa [Instr.wf] using hwf) hrun

end Sys2Proof.Machine
end

section
/-! PROOFS. The default carrier where an operand may be no number: what a finite result says of its operands, the
sign of a product moved between its factors, and the operations up to the sign of zero (spec/00_scope.md R10). -/

namespace Sys2Proof.NUM

/-! ## Finite results have finite operands -/

theorem isFinite_eq (x : NUM) : x.isFinite = (!x.isNaN && !x.isInf) := by
  rw [Bool.eq_iff_iff, isFinite_iff]
  simp only [isNaN, isInf, Bool.and_eq_true, Bool.not_eq_true', decide_eq_false_iff_not, beq_eq_false_iff_ne]
  omega

theorem isFinite_nanOf (op : Nat) (a b : NUM) : (nanOf op a b).isFinite = false := by
  rw [isFinite_eq, nanOf_isNaN]
  rfl

theorem isFinite_signedInf (s : Bool) : (signedInf s).isFinite = false := by cases s <;> decide

theorem finite_of_add {a b : NUM} (h : (a.add b).isFinite = true) : a.isFinite = true ∧ b.isFinite = true := by
  rw [isFinite_eq a, isFinite_eq b]
  unfold add at h
  split at h
  case isTrue => exact absurd h (by simp [isFinite_nanOf])
  case isFalse hnan =>
    split at h
    case isTrue hinf =>
      split at h
      · exact absurd h (by simp [isFinite_nanOf])
      · exact absurd h (by simp [isFinite_eq, hinf])
    case isFalse hinf =>
      split at h
      · next hinf' => exact absurd h (by simp [isFinite_eq, hinf'])
      · next hinf' => simp_all

theorem finite_of_sub {a b : NUM} (h : (a.sub b).isFinite = true) : a.isFinite = true ∧ b.isFinite = true := by
  unfold sub at h
  split at h
  · exact absurd h (by simp [isFinite_nanOf])
  · simpa using finite_of_add h

theorem finite_of_mul {a b : NUM} (h : (a.mul b).isFinite = true) : a.isFinite = true ∧ b.isFinite = true := by
  rw [isFinite_eq a, isFinite_eq b]
  unfold mul at h
  dsimp only at h
  split at h
  case isTrue => exact absurd h (by simp [isFinite_nanOf])
  case isFalse hnan =>
    split at h
    case isTrue hinf =>
      split at h
      · exact absurd h (by simp [isFinite_nanOf])
      · exact absurd h (by simp [isFinite_signedInf])
    case isFalse hinf => simp_all

/-! ## Infinities and signs -/

/-- A datum that is no NaN is finite or one of the two infinities. -/
theorem finite_or_signedInf {x : NUM} (h : x.isNaN = false) : x.isFinite = true ∨ ∃ s, x = signedInf s := by
  cases hinf : x.isInf with
  | false => exact .inl (by simp [isFinite_eq, h, hinf])
  | true =>
    have hmag : x.magnitude = infMagnitude := by simpa [isInf] using hinf
    exact .inr ⟨x.sign, by rw [signedInf, ← hmag, ofMagnitude_sign_magnitude]⟩

/-- R10 N1 holds of the infinities too. -/
theorem one_mul_of_not_nan {x : NUM} (h : x.isNaN = false) : one.mul x = x := by
  rcases finite_or_signedInf h with hfin | ⟨s, rfl⟩
  · exact (one_mul_of_finite hfin).1
  · cases s <;> decide

/-- 0 added to what is no zero changes nothing, an infinity included. -/
theorem zero_add_of_not_isZero {x : NUM} (h : x.isNaN = false) (h0 : x.isZero = false) : zero.add x = x := by
  rcases finite_or_signedInf h with hfin | ⟨s, rfl⟩
  · exact (add_of_isZero hfin isZero_zero).2.resolve_right (by simp [h0])
  · cases s <;> decide

/-- 0 less what is no zero is its opposite. -/
theorem zero_sub_of_not_isZero {x : NUM} (h : x.isNaN = false) (h0 : x.isZero = false) : zero.sub x = x.neg := by
  rcases finite_or_signedInf h with hfin | ⟨s, rfl⟩
  · rw [sub_eq_add_neg_of_finite isFraction_zero.finite hfin]
    exact zero_add_of_not_isZero (by rwa [isNaN_neg]) (by simpa)
  · cases s <;> decide

theorem significand_exponent_neg (x : NUM) : x.neg.significand = x.significand ∧ x.neg.exponent = x.exponent :=
  significand_exponent_of_magnitude x.significand_lt x.le_exponent x.exponent_eq_or_le_significand
    (by rw [magnitude_neg]; exact magnitude_eq_exponent_significand x)

/-- The sign of a product of finite data may stand at either factor. -/
theorem neg_mul_of_finite {a b : NUM} (ha : a.isFinite = true) (hb : b.isFinite = true) :
    a.neg.mul b = a.mul b.neg := by
  obtain ⟨hsa, hea⟩ := significand_exponent_neg a
  obtain ⟨hsb, heb⟩ := significand_exponent_neg b
  have hna : a.neg.isFinite = true := by simpa
  have hnb : b.neg.isFinite = true := by simpa
  simp [mul, isNaN_of_finite, isInf_of_finite, ha, hb, hna, hnb, hsa, hea, hsb, heb]

theorem ofInt_two_finite : (ofInt 2).isFinite = true := isFinite_ofInt (by decide)

theorem neg_ofInt_two : (ofInt 2).neg = ofInt (-2) := by decide +kernel

theorem minus_two_mul {x : NUM} (h : x.isNaN = false) : (ofInt (-2)).mul x = (ofInt 2).mul x.neg := by
  rcases finite_or_signedInf h with hfin | ⟨s, rfl⟩
  · rw [← neg_ofInt_two, neg_mul_of_finite ofInt_two_finite hfin]
  · cases s <;> decide +kernel

/-! ## Operations up to the sign of zero -/

theorem same_iff {a b : NUM} : Num.binary32.same a b ↔ a = b ∨ (a.isZero = true ∧ b.isZero = true) := by
  simp [Num.same]

theorem same_symm {a b : NUM} (h : Num.binary32.same a b) : Num.binary32.same b a :=
  h.imp Eq.symm And.symm

/-- A zero divided by a finite datum other than zero is a zero. -/
theorem isZero_div_of_isZero {a b : NUM} (ha : a.isZero = true) (hb : b.isFinite = true) (hb0 : b.isZero = false) :
    (a.div b).isZero = true := by
  have hz := isZero_signedZero (a.sign != b.sign)
  have hquot : a.div b = signedZero (a.sign != b.sign) := by
    refine div_exact (finite_of_isZero ha) hb (finite_of_isZero hz) hb0 ?_ (sign_ofMagnitude ..)
    rw [(absValue_eq_zero _).2 ((isZero_iff _).1 hz), (absValue_eq_zero _).2 ((isZero_iff _).1 ha), zero_mul]
  exact hquot ▸ hz

/-- Adding a zero to a finite datum other than zero changes nothing. -/
theorem add_isZero_of_not_isZero {a z : NUM} (ha : a.isFinite = true) (ha0 : a.isZero = false)
    (hz : z.isZero = true) : a.add z = a :=
  (add_of_isZero ha hz).1.resolve_right (by simp [ha0])

theorem sub_isZero_of_not_isZero {a z : NUM} (ha : a.isFinite = true) (ha0 : a.isZero = false)
    (hz : z.isZero = true) : a.sub z = a := by
  rw [sub_eq_add_neg_of_finite ha (finite_of_isZero hz)]
  exact add_isZero_of_not_isZero ha ha0 (by simpa)

theorem same_div {a a' b : NUM} (h : Num.binary32.same a a') (hb : b.isFinite = true) (hb0 : b.isZero = false) :
    Num.binary32.same (a.div b) (a'.div b) := by
  rcases same_iff.1 h with rfl | ⟨ha, ha'⟩
  · exact .inl rfl
  · exact same_iff.2 (.inr ⟨isZero_div_of_isZero ha hb hb0, isZero_div_of_isZero ha' hb hb0⟩)

/-- A finite product stays the same where its factors do. -/
theorem same_mul {a a' x y : NUM} (ha : Num.binary32.same a a') (hx : Num.binary32.same y x)
    (h : (a.mul x).isFinite = true) : Num.binary32.same (a.mul x) (a'.mul y) := by
  obtain ⟨hafin, hxfin⟩ := finite_of_mul h
  have hyfin : y.isFinite = true := binary32_lawful.finite_of_same hx hxfin
  rcases same_iff.1 ha with rfl | ⟨ha, ha'⟩
  · rcases same_iff.1 hx with rfl | ⟨hy, hx⟩
    · exact .inl rfl
    · exact same_iff.2
        (.inr ⟨isZero_mul_of_isZero hafin hxfin (.inr hx), isZero_mul_of_isZero hafin hyfin (.inr hy)⟩)
  · exact same_iff.2 (.inr ⟨isZero_mul_of_isZero hafin hxfin (.inl ha),
      isZero_mul_of_isZero (finite_of_isZero ha') hyfin (.inl ha')⟩)

/-- R10 N4, up to the sign of zero. -/
theorem isZero_sub_of_same {a b : NUM} (h : Num.binary32.same a b) (ha : a.isFinite = true) :
    (a.sub b).isZero = true := by
  rcases same_iff.1 h with rfl | ⟨ha, hb⟩
  · rw [sub_self_of_finite ha]
    exact isZero_zero
  · exact isZero_sub_isZero ha hb

end Sys2Proof.NUM
end

section
/-! PROOFS. The biquad section on sequences (spec/40_biquad.md R125, R129): where numerator and denominator cancel on
every input, a section without memory answers its input and stays without memory. -/

namespace Sys2Proof.Machine

open Sys2Proof Sys2Proof.Claims NUM

variable {F : Type} {N : Num F}

/-! ## One sample and a sequence -/

theorem foldl_process_eq (N : Num F) (b : Biquad F) (xs ys : List F) :
    xs.foldl (fun (p : Biquad F × List F) x => ((p.1.process N x).1, p.2 ++ [(p.1.process N x).2])) (b, ys) =
      ((throughSection N b xs).1, ys ++ (throughSection N b xs).2) := by
  unfold throughSection
  induction xs generalizing b ys with
  | nil => simp
  | cons x xs ih =>
    rw [List.foldl_cons, List.foldl_cons, ih, ih _ ([] ++ _)]
    simp

theorem throughSection_cons (N : Num F) (b : Biquad F) (x : F) (xs : List F) :
    throughSection N b (x :: xs) =
      ((throughSection N (b.process N x).1 xs).1, (b.process N x).2 :: (throughSection N (b.process N x).1 xs).2) :=
  foldl_process_eq N (b.process N x).1 xs [(b.process N x).2]

/-- R125: a sequence, as a sample, changes the memory alone. -/
theorem throughSection_frame (N : Num F) (b : Biquad F) (xs : List F) (z1 z2 : F) :
    { (throughSection N b xs).1 with z1 := z1, z2 := z2 } = { b with z1 := z1, z2 := z2 } := by
  induction xs generalizing b with
  | nil => rfl
  | cons x xs ih =>
    rw [throughSection_cons]
    exact ih _

/-! ## Cancelling coefficients -/

/-- A coefficient `n` of the numerator and its partner `d` of the denominator contribute nothing where the output is
the input `x`, up to the sign of zero. -/
def Cancels (N : Num F) (n d x : F) : Prop := ∀ y, N.same y x → N.isZero (N.sub (N.mul n x) (N.mul d y)) = true

theorem isZero_add_isZero (hN : N.Lawful) {a b : F} (ha : N.isZero a = true) (hb : N.isZero b = true) :
    N.isZero (N.add a b) = true :=
  Num.same_isZero (hN.add_zero a b (hN.finite_of_isZero _ ha) hb).1 ha

/-- R129, R130: one sample through a section without memory whose coefficients cancel. -/
theorem process_of_cancels (hN : N.Lawful) {b : Biquad F} {x : F} (h0 : b.b0 = N.one) (hz1 : N.isZero b.z1 = true)
    (hz2 : N.isZero b.z2 = true) (hx : N.isFinite x = true) (h1 : Cancels N b.b1 b.a1 x) (h2 : Cancels N b.b2 b.a2 x) :
    N.same (b.process N x).2 x ∧ N.isZero (b.process N x).1.z1 = true ∧ N.isZero (b.process N x).1.z2 = true := by
  have hy : N.same (b.process N x).2 x := by
    simp only [Biquad.process, h0, (hN.one_mul x hx).1]
    exact (hN.add_zero x b.z1 hx hz1).1
  exact ⟨hy, isZero_add_isZero hN (h1 _ hy) hz2, h2 _ hy⟩

/-- R129, R130: the same for a sequence, by induction. -/
theorem throughSection_of_cancels (hN : N.Lawful) {xs : List F} : ∀ {b : Biquad F}, b.b0 = N.one →
    N.isZero b.z1 = true → N.isZero b.z2 = true →
    (∀ x ∈ xs, N.isFinite x = true ∧ Cancels N b.b1 b.a1 x ∧ Cancels N b.b2 b.a2 x) →
    List.Forall₂ N.same (throughSection N b xs).2 xs ∧ N.isZero (throughSection N b xs).1.z1 = true ∧
      N.isZero (throughSection N b xs).1.z2 = true := by
  induction xs with
  | nil => exact fun _ hz1 hz2 _ => ⟨.nil, hz1, hz2⟩
  | cons x xs ih =>
    intro b h0 hz1 hz2 hxs
    obtain ⟨⟨hx, h1, h2⟩, hrest⟩ := List.forall_mem_cons.1 hxs
    obtain ⟨hy, hz1', hz2'⟩ := process_of_cancels hN h0 hz1 hz2 hx h1 h2
    obtain ⟨hys, hend⟩ := ih (b := (b.process N x).1) h0 hz1' hz2' hrest
    rw [throughSection_cons]
    exact ⟨.cons hy hys, hend⟩

/-! ## Up to the sign of zero -/

/-- Two data are the same up to the sign of zero where they agree without it. -/
theorem unsigned_eq_iff {x y : NUM} : unsigned x = unsigned y ↔ Num.binary32.same x y := by
  rw [same_iff]
  unfold unsigned
  constructor
  · intro h
    split at h <;> split at h
    · exact .inr ⟨‹_›, ‹_›⟩
    · exact absurd (h ▸ isZero_zero) ‹_›
    · exact absurd (h ▸ isZero_zero) ‹_›
    · exact .inl h
  · rintro (rfl | ⟨hx, hy⟩)
    · rfl
    · rw [if_pos hx, if_pos hy]

theorem map_unsigned_eq {xs ys : List NUM} (h : List.Forall₂ Num.binary32.same xs ys) :
    xs.map unsigned = ys.map unsigned := by
  induction h with
  | nil => rfl
  | cons hx _ ih => rw [List.map_cons, List.map_cons, unsigned_eq_iff.2 hx, ih]

/-! ## Bypass -/

/-- Coefficients that are 0 cancel on every finite input. -/
theorem cancels_zero (hN : N.Lawful) {x : F} (hx : N.isFinite x = true) : Cancels N N.zero N.zero x := fun y hy =>
  hN.zero_sub_zero _ _ (hN.zero_mul x N.zero hx hN.zero_isZero).1
    (hN.zero_mul y N.zero (hN.finite_of_same hy hx) hN.zero_isZero).1

/-- R129 over every lawful carrier. -/
theorem throughSection_bypassed (hN : N.Lawful) {xs : List F} (hxs : ∀ x ∈ xs, N.isFinite x = true) :
    List.Forall₂ N.same (throughSection N (Biquad.bypassed N) xs).2 xs ∧
      N.isZero (throughSection N (Biquad.bypassed N) xs).1.z1 = true ∧
      N.isZero (throughSection N (Biquad.bypassed N) xs).1.z2 = true :=
  throughSection_of_cancels hN rfl hN.zero_isZero hN.zero_isZero fun x hx =>
    have hfin := hxs x hx
    ⟨hfin, cancels_zero hN hfin, cancels_zero hN hfin⟩

/-- Adding +0 changes no finite datum but −0. -/
theorem add_zero_of_ne {x : NUM} (hx : x.isFinite = true) (hne : x.bits ≠ 0x80000000#32) : x.add NUM.zero = x := by
  rcases (add_of_isZero hx isZero_zero).1 with h | ⟨h0, -⟩
  · exact h
  · cases hs : x.sign with
    | false =>
      rw [eq_signedZero h0, hs]
      decide
    | true => exact absurd (by rw [eq_signedZero h0, hs]; decide) hne

/-- R129: in bypass a finite input other than −0 comes back bit for bit, and the record stays as it was. -/
theorem bypassRecord_process {x : NUM} (hx : x.isFinite = true) (hne : x.bits ≠ 0x80000000#32) :
    bypassRecord.process Num.binary32 x = (bypassRecord, x) := by
  have hprod : (NUM.zero.mul x).isFinite = true :=
    finite_of_isZero (isZero_mul_of_isZero isFraction_zero.finite hx (.inl isZero_zero))
  have hzero : NUM.zero.add NUM.zero = NUM.zero := by decide
  simp only [Biquad.process, bypassRecord, binary32_add, binary32_mul, binary32_sub, (one_mul_of_finite hx).1,
    add_zero_of_ne hx hne, sub_self_of_finite hprod, hzero]

theorem throughSection_bypassRecord {xs : List NUM} (hxs : ∀ x ∈ xs, x.isFinite = true)
    (hne : ∀ x ∈ xs, x.bits ≠ 0x80000000#32) : throughSection Num.binary32 bypassRecord xs = (bypassRecord, xs) := by
  induction xs with
  | nil => rfl
  | cons x xs ih =>
    obtain ⟨hx, hxs⟩ := List.forall_mem_cons.1 hxs
    obtain ⟨hx0, hne⟩ := List.forall_mem_cons.1 hne
    rw [throughSection_cons, bypassRecord_process hx hx0, ih hxs hne]

/-- Settles O24: over a lawful carrier the coefficients of a section in bypass cancel on every finite input; over the
default carrier each step is exact besides. -/
theorem bypassIsTheIdentity : Obligations.BypassIsTheIdentity := by
  refine ⟨fun F N xs hN hxs => throughSection_bypassed hN hxs, fun xs hxs => ?_⟩
  obtain ⟨hys, hz1, hz2⟩ := throughSection_bypassed binary32_lawful hxs
  rw [binary32_isZero] at hz1 hz2
  exact ⟨map_unsigned_eq hys, hz1, hz2, throughSection_frame .., throughSection_bypassRecord hxs⟩

end Sys2Proof.Machine
end

section
/-! PROOFS. The commands of the biquad (spec/40_biquad.md R121 to R127, R130): each design as its formula with any
function in the place of the cosine, what the commands store and answer, and the designs of 0 dB. -/

namespace Sys2Proof.Machine

open Sys2Proof Sys2Proof.Claims NUM

/-! ## The designs as formulas -/

/-- The parameters with another cosine, of which R9 and R10 say nothing. -/
def withCosine (p : Params) (cos : NUM → NUM) : Params := { p with cos := cos }

theorem withCosine_self (p : Params) : withCosine p p.cos = p := rfl

theorem withCosine_theParams : withCosine theParams NUM.cos = theParams := withCosine_self theParams

theorem withCosine_toNum (cos : NUM → NUM) :
    (withCosine theParams cos).toNum = { Num.binary32 with cos := cos } := rfl

theorem withCosine_qMin (p : Params) (cos : NUM → NUM) : (withCosine p cos).qMin = p.qMin := rfl

/-- `w` of R126. -/
def angularOf (f : NUM) (sr : Int) : NUM := (((NUM.ofInt 2).mul NUM.pi).mul f).div (NUM.ofInt sr)

/-- `Qe` of R122. -/
def effectiveQ (q : NUM) : NUM := if q.lt ⟨0x3DCCCCCD#32⟩ then ⟨0x3DCCCCCD#32⟩ else q

/-- The peaking design of R122 from `alpha`, `A` and `c`. -/
def peakingFormula (alpha a c : NUM) : Biquad :=
  designed (NUM.one.add (alpha.mul a)) ((NUM.ofInt (-2)).mul c) (NUM.one.sub (alpha.mul a))
    (NUM.one.add (alpha.div a)) ((NUM.ofInt (-2)).mul c) (NUM.one.sub (alpha.div a)) .peaking

/-- `k` of R123, for slope 1 (R128). -/
def shelfGain (w a : NUM) : NUM :=
  ((NUM.ofInt 2).mul a.sqrt).mul ((w.sin.div (NUM.ofInt 2)).mul (NUM.ofInt 2).sqrt)

/-- The low-shelf design of R123 from `A + 1`, `A − 1`, `A`, `c` and `k`. -/
def lowShelfFormula (ap am a c k : NUM) : Biquad :=
  designed (a.mul ((ap.sub (am.mul c)).add k)) (((NUM.ofInt 2).mul a).mul (am.sub (ap.mul c)))
    (a.mul ((ap.sub (am.mul c)).sub k)) ((ap.add (am.mul c)).add k)
    ((NUM.ofInt (-2)).mul (am.add (ap.mul c))) ((ap.add (am.mul c)).sub k) .lowShelf

/-- The high-shelf design of R124 from the same. -/
def highShelfFormula (ap am a c k : NUM) : Biquad :=
  designed (a.mul ((ap.add (am.mul c)).add k)) (((NUM.ofInt (-2)).mul a).mul (am.add (ap.mul c)))
    (a.mul ((ap.add (am.mul c)).sub k)) ((ap.sub (am.mul c)).add k)
    ((NUM.ofInt 2).mul (am.sub (ap.mul c))) ((ap.sub (am.mul c)).sub k) .highShelf

/-- R128: the slope of the spec's parameters is 1, so that the radicand is 2. -/
theorem slopeIsOne_theParams : slopeIsOne theParams = true := by decide

theorem slopeIsOne_withCosine (p : Params) (cos : NUM → NUM) : slopeIsOne (withCosine p cos) = slopeIsOne p := rfl

theorem shelfK_eq (cos : NUM → NUM) (w a : NUM) : shelfK (withCosine theParams cos) w a = shelfGain w a := by
  simp only [shelfK, shelfRadicand, slopeIsOne_withCosine, slopeIsOne_theParams, if_true, withCosine_toNum,
    binary32_mul, binary32_div, binary32_sin, binary32_sqrt, binary32_ofInt, shelfGain]

/-- R127: a design with a frequency or a sample rate that is not positive is the bypass record. -/
theorem designs_bypassed {f : NUM} {sr : Int} (h : f.le NUM.zero = true ∨ sr ≤ 0) (g q : NUM) :
    Biquad.peaking theParams f g q sr = bypassRecord ∧ Biquad.lowShelf theParams f g sr = bypassRecord ∧
      Biquad.highShelf theParams f g sr = bypassRecord := by
  have hforced : forcesBypass theParams.toNum f sr = true := by simpa [forcesBypass] using h
  exact ⟨if_pos hforced, if_pos hforced, if_pos hforced⟩

section

variable (cos : NUM → NUM) {f : NUM} {sr : Int} (hf : f.le NUM.zero = false) (hsr : 0 < sr)

include hf hsr

theorem not_forcesBypass : ¬ forcesBypass (withCosine theParams cos).toNum f sr = true := by
  have hle : (withCosine theParams cos).toNum.le f (withCosine theParams cos).toNum.zero = false := hf
  simp [forcesBypass, hle, hsr]

/-- R122. -/
theorem peaking_eq (g q : NUM) : Biquad.peaking (withCosine theParams cos) f g q sr =
    peakingFormula ((angularOf f sr).sin.div ((NUM.ofInt 2).mul (effectiveQ q))) (g.div (NUM.ofInt 40)).pow10
      (cos (angularOf f sr)) := by
  unfold Biquad.peaking
  dsimp only
  rw [if_neg (not_forcesBypass cos hf hsr)]
  simp [withCosine_qMin, withCosine_toNum, Num.max, angular, gainFactor, Biquad.normalised, Biquad.loaded,
    peakingFormula, designed, angularOf, effectiveQ]

/-- R123. -/
theorem lowShelf_eq (g : NUM) : Biquad.lowShelf (withCosine theParams cos) f g sr =
    let a := (g.div (NUM.ofInt 40)).pow10
    lowShelfFormula (a.add NUM.one) (a.sub NUM.one) a (cos (angularOf f sr)) (shelfGain (angularOf f sr) a) := by
  unfold Biquad.lowShelf
  dsimp only
  rw [if_neg (not_forcesBypass cos hf hsr)]
  simp [shelfK_eq, withCosine_toNum, angular, gainFactor, Biquad.normalised, Biquad.loaded, lowShelfFormula, designed,
    angularOf]

/-- R124. -/
theorem highShelf_eq (g : NUM) : Biquad.highShelf (withCosine theParams cos) f g sr =
    let a := (g.div (NUM.ofInt 40)).pow10
    highShelfFormula (a.add NUM.one) (a.sub NUM.one) a (cos (angularOf f sr)) (shelfGain (angularOf f sr) a) := by
  unfold Biquad.highShelf
  dsimp only
  rw [if_neg (not_forcesBypass cos hf hsr)]
  simp [shelfK_eq, withCosine_toNum, angular, gainFactor, Biquad.normalised, Biquad.loaded, highShelfFormula, designed,
    angularOf]

end

/-! ## The commands -/

theorem biquadIndex_of_lt {u : BitVec 8} (hu : u.toNat < 9) : biquadIndex u = ⟨u.toNat, hu⟩ := dif_pos hu

section

variable {s : State} {u : BitVec 8} (hrun : s.run = .stopped) (hu : u.toNat < 9)

include hrun

/-- A `set` command that no check refuses stores its design, clears the memory with it and answers OK. -/
theorem biquadSet_answers {fs : List NUM} (hfs : fs.all NUM.isFinite = true) (b : Biquad) :
    s.guarded (biquadSetChecks s u fs) (complete (s.setBq (biquadIndex u) b)) =
      .next (answeredOk { s with bq := s.bq.set u.toNat b }) := by
  rw [State.guarded_pass (by simp [biquadSetChecks, finiteCheck, stoppedCheck, rangeCheck, hfs, hrun, hu]),
    biquadIndex_of_lt hu]
  rfl

theorem exec_bqByp : exec (.bqByp u) s = .next (answeredOk { s with bq := s.bq.set u.toNat bypassRecord }) :=
  biquadSet_answers hrun hu (fs := []) rfl _

variable {f g q : NUM} (hf : f.isFinite = true) (hg : g.isFinite = true) (hq : q.isFinite = true) (sr : Word)

include hf hg

theorem exec_bqLsh : exec (.bqLsh u f g sr) s =
    .next (answeredOk { s with bq := s.bq.set u.toNat (Biquad.lowShelf theParams f g sr.toInt) }) :=
  biquadSet_answers hrun hu (fs := [f, g]) (by simp [hf, hg]) _

theorem exec_bqHsh : exec (.bqHsh u f g sr) s =
    .next (answeredOk { s with bq := s.bq.set u.toNat (Biquad.highShelf theParams f g sr.toInt) }) :=
  biquadSet_answers hrun hu (fs := [f, g]) (by simp [hf, hg]) _

include hq

theorem exec_bqPeak : exec (.bqPeak u f g q sr) s =
    .next (answeredOk { s with bq := s.bq.set u.toNat (Biquad.peaking theParams f g q sr.toInt) }) :=
  biquadSet_answers hrun hu (fs := [f, g, q]) (by simp [hf, hg, hq]) _

end

/-- Settles O20: the four commands store a record, and the forced design is the bypass record. -/
theorem bypassIsStored : Obligations.BypassIsStored := by
  intro s u hu hrun
  refine ⟨exec_bqByp hrun hu, fun f g q sr hf hg hq hforced => ?_⟩
  obtain ⟨hpeak, hlow, hhigh⟩ := designs_bypassed hforced g q
  exact ⟨hpeak ▸ exec_bqPeak hrun hu hf hg hq sr, hlow ▸ exec_bqLsh hrun hu hf hg sr,
    hhigh ▸ exec_bqHsh hrun hu hf hg sr⟩

/-- Settles O21: BQ.PEAK stores the peaking design, which is its formula. -/
theorem peakingDesignIsStored : Obligations.PeakingDesignIsStored := by
  intro s u hu f g q sr hrun hf hg hq hpos hsr
  have hdesign := peaking_eq NUM.cos hpos hsr g q
  have hexec := exec_bqPeak hrun hu hf hg hq sr
  rw [withCosine_theParams] at hdesign
  rwa [hdesign] at hexec

/-- Settles O22: the two commands store the shelving designs, which are their formulas. -/
theorem shelvingDesignsAreStored : Obligations.ShelvingDesignsAreStored := by
  intro s u hu f g sr hrun hf hg hpos hsr
  have hlow := lowShelf_eq NUM.cos hpos hsr g
  have hhigh := highShelf_eq NUM.cos hpos hsr g
  have hexecLow := exec_bqLsh hrun hu hf hg sr
  have hexecHigh := exec_bqHsh hrun hu hf hg sr
  rw [withCosine_theParams] at hlow hhigh
  rw [hlow] at hexecLow
  rw [hhigh] at hexecHigh
  exact ⟨hexecLow, hexecHigh⟩

/-- Settles O23: no check of BQ.PROC fails, and its sample is that of the named section. -/
theorem biquadProcessesOneSample : Obligations.BiquadProcessesOneSample := by
  intro s u hu x hrun hx hinit
  change s.guarded _ _ = _
  rw [biquadIndex_of_lt hu]
  have hget : (s.bq.get ⟨u.toNat, hu⟩).init = true := hinit
  rw [State.guarded_pass (by simp [finiteCheck, stoppedCheck, rangeCheck, initCheck, hx, hrun, hu, hget])]
  rfl

end Sys2Proof.Machine
end

section
/-! PROOFS. The biquad designs of 0 dB (spec/40_biquad.md R130): numerator and denominator are equal up to the sign of a
zero `b1`, so that they cancel. -/

namespace Sys2Proof.Machine

open Sys2Proof Sys2Proof.Claims NUM

/-! ## Equal polynomials -/

/-- Coefficients that are the same cancel wherever their product with the input is finite. -/
theorem cancels_of_same {n d x : NUM} (h : Num.binary32.same n d) (hfin : (n.mul x).isFinite = true) :
    Cancels Num.binary32 n d x := fun _ hy =>
  (binary32_isZero _).trans (isZero_sub_of_same (same_mul h hy hfin) hfin)

/-- R130: a design whose raw numerator is its raw denominator, up to the sign of a zero in the middle, is
transparent. -/
theorem designed_transparent {rb0 rb1 rb2 ra0 ra1 ra2 : NUM} (hfin : ra0.isFinite = true) (h0 : ra0.isZero = false)
    (e0 : rb0 = ra0) (e1 : Num.binary32.same rb1 ra1) (e2 : rb2 = ra2) (mode : BiquadMode) :
    transparent (designed rb0 rb1 rb2 ra0 ra1 ra2 mode) := by
  subst e0 e2
  have hb0 : rb0.div rb0 = NUM.one := div_self_of_finite hfin h0
  have hb1 := same_div e1 hfin h0
  refine ⟨hb0, unsigned_eq_iff.2 hb1, rfl, fun xs hxs => ?_⟩
  have hzero : Num.binary32.isZero NUM.zero = true := binary32_lawful.zero_isZero
  refine map_unsigned_eq (throughSection_of_cancels binary32_lawful hb0 hzero hzero fun x hx => ?_).1
  obtain ⟨hx, hx1, hx2⟩ := hxs x hx
  exact ⟨hx, cancels_of_same hb1 hx1, cancels_of_same (.inl rfl) hx2⟩

/-! ## The three designs -/

/-- R10 N8: `A = 1` at 0 dB, of either sign. -/
theorem pow10_of_zero_gain {g : NUM} (hg : g.isZero = true) : (g.div (NUM.ofInt 40)).pow10 = NUM.one :=
  if_pos (isZero_div_of_isZero hg (isFinite_ofInt (by decide)) (by decide +kernel))

theorem peakingFormula_transparent {alpha : NUM} (c : NUM) (hfin : (NUM.one.add alpha).isFinite = true)
    (h0 : (NUM.one.add alpha).isZero = false) :
    (peakingFormula alpha NUM.one c).b1 = (peakingFormula alpha NUM.one c).a1 ∧
      transparent (peakingFormula alpha NUM.one c) := by
  obtain ⟨-, halpha⟩ := finite_of_add hfin
  unfold peakingFormula
  rw [(one_mul_of_finite halpha).2, div_one_of_finite halpha]
  exact ⟨rfl, designed_transparent hfin h0 rfl (.inl rfl) rfl _⟩

/-- At 0 dB `A − 1` is 0, and a cosine whose product with it is finite vanishes from `(A + 1) ± (A − 1)·c`. -/
theorem two_add_sub_zero_mul {c : NUM} (h : (NUM.zero.mul c).isFinite = true) :
    (NUM.ofInt 2).add (NUM.zero.mul c) = NUM.ofInt 2 ∧ (NUM.ofInt 2).sub (NUM.zero.mul c) = NUM.ofInt 2 := by
  have hz := isZero_mul_of_isZero isFraction_zero.finite (finite_of_mul h).2 (.inl isZero_zero)
  have h0 : (NUM.ofInt 2).isZero = false := by decide +kernel
  exact ⟨add_isZero_of_not_isZero ofInt_two_finite h0 hz, sub_isZero_of_not_isZero ofInt_two_finite h0 hz⟩

/-- R123, R124: `2·(0 − 2·c)` and `−2·(0 + 2·c)`, the middle coefficients of a shelf at 0 dB, where `p = 2·c` may be
an infinity. -/
theorem same_middle {p : NUM} (h : p.isNaN = false) :
    Num.binary32.same ((NUM.ofInt 2).mul (NUM.zero.sub p)) ((NUM.ofInt (-2)).mul (NUM.zero.add p)) := by
  cases h0 : p.isZero with
  | false => exact .inl (by rw [zero_sub_of_not_isZero h h0, zero_add_of_not_isZero h h0, minus_two_mul h])
  | true =>
    have hsub := isZero_sub_isZero isZero_zero h0
    have hadd := (binary32_isZero _).symm.trans
      (isZero_add_isZero binary32_lawful (binary32_lawful.zero_isZero) ((binary32_isZero p).trans h0))
    exact same_iff.2 (.inr ⟨isZero_mul_of_isZero ofInt_two_finite (finite_of_isZero hsub) (.inr hsub),
      isZero_mul_of_isZero (isFinite_ofInt (by decide)) (finite_of_isZero hadd) (.inr hadd)⟩)

theorem isNaN_two_mul {c : NUM} (h : (NUM.zero.mul c).isFinite = true) : ((NUM.ofInt 2).mul c).isNaN = false :=
  isNaN_mul_of_finite ofInt_two_finite (finite_of_mul h).2

theorem one_mul_two_sub {k : NUM} (hk : k.isFinite = true) :
    NUM.one.mul ((NUM.ofInt 2).sub k) = (NUM.ofInt 2).sub k :=
  one_mul_of_not_nan (isNaN_sub ofInt_two_finite (isNaN_of_finite hk))

theorem lowShelfFormula_transparent {c k : NUM}
    (hfin : (((NUM.ofInt 2).add (NUM.zero.mul c)).add k).isFinite = true)
    (h0 : (((NUM.ofInt 2).add (NUM.zero.mul c)).add k).isZero = false) :
    transparent (lowShelfFormula (NUM.ofInt 2) NUM.zero NUM.one c k) := by
  obtain ⟨hsum, hk⟩ := finite_of_add hfin
  obtain ⟨-, hc⟩ := finite_of_add hsum
  obtain ⟨hadd, hsub⟩ := two_add_sub_zero_mul hc
  unfold lowShelfFormula
  rw [hadd] at hfin h0
  rw [hadd, hsub, (one_mul_of_finite hfin).1, (one_mul_of_finite ofInt_two_finite).2, one_mul_two_sub hk]
  exact designed_transparent hfin h0 rfl (same_middle (isNaN_two_mul hc)) rfl _

theorem highShelfFormula_transparent {c k : NUM}
    (hfin : (((NUM.ofInt 2).sub (NUM.zero.mul c)).add k).isFinite = true)
    (h0 : (((NUM.ofInt 2).sub (NUM.zero.mul c)).add k).isZero = false) :
    transparent (highShelfFormula (NUM.ofInt 2) NUM.zero NUM.one c k) := by
  obtain ⟨hdiff, hk⟩ := finite_of_add hfin
  obtain ⟨-, hc⟩ := finite_of_sub hdiff
  obtain ⟨hadd, hsub⟩ := two_add_sub_zero_mul hc
  unfold highShelfFormula
  rw [hsub] at hfin h0
  rw [hadd, hsub, (one_mul_of_finite hfin).1, (one_mul_of_finite (isFinite_ofInt (by decide))).2, one_mul_two_sub hk]
  exact designed_transparent hfin h0 rfl (same_symm (same_middle (isNaN_two_mul hc))) rfl _

/-! ## The designs of 0 dB -/

/-- `k` of R123 at 0 dB. -/
theorem shelfGain_one (w : NUM) : shelfGain w NUM.one =
    ((NUM.ofInt 2).mul NUM.one).mul ((w.sin.div (NUM.ofInt 2)).mul (NUM.ofInt 2).sqrt) := by
  have hroot : NUM.one.sqrt = NUM.one := by decide +kernel
  rw [shelfGain, hroot]

theorem one_add_one : NUM.one.add NUM.one = NUM.ofInt 2 := by decide +kernel

section

variable (cos : NUM → NUM) {f g : NUM} {sr : Int} (hg : g.isZero = true) (hf : f.le NUM.zero = false) (hsr : 0 < sr)

include hg hf hsr

theorem peaking_zeroGain (q : NUM) : Biquad.peaking (withCosine theParams cos) f g q sr =
    peakingFormula ((angularOf f sr).sin.div ((NUM.ofInt 2).mul (effectiveQ q))) NUM.one (cos (angularOf f sr)) := by
  rw [peaking_eq cos hf hsr, pow10_of_zero_gain hg]

theorem lowShelf_zeroGain : Biquad.lowShelf (withCosine theParams cos) f g sr =
    lowShelfFormula (NUM.ofInt 2) NUM.zero NUM.one (cos (angularOf f sr)) (shelfGain (angularOf f sr) NUM.one) := by
  rw [lowShelf_eq cos hf hsr, pow10_of_zero_gain hg]
  simp only [one_add_one, sub_self_of_finite isFraction_one.finite]

theorem highShelf_zeroGain : Biquad.highShelf (withCosine theParams cos) f g sr =
    highShelfFormula (NUM.ofInt 2) NUM.zero NUM.one (cos (angularOf f sr)) (shelfGain (angularOf f sr) NUM.one) := by
  rw [highShelf_eq cos hf hsr, pow10_of_zero_gain hg]
  simp only [one_add_one, sub_self_of_finite isFraction_one.finite]

end

/-- Settles O25: with `A = 1` the formulas of the designs have equal polynomials, whatever the cosine is. -/
theorem peakingAtZeroGainIsTransparent : Obligations.PeakingAtZeroGainIsTransparent := by
  intro cos f g q sr _ _ hg hf hsr p w qe two k peakRa0 lowRa0 highRa0 peak
  have hk : shelfGain w NUM.one = k := shelfGain_one w
  have hpeak : peak = peakingFormula (w.sin.div (two.mul qe)) NUM.one (cos w) := peaking_zeroGain cos hg hf hsr q
  have hlow : Biquad.lowShelf p f g sr = lowShelfFormula two NUM.zero NUM.one (cos w) k :=
    hk ▸ lowShelf_zeroGain cos hg hf hsr
  have hhigh : Biquad.highShelf p f g sr = highShelfFormula two NUM.zero NUM.one (cos w) k :=
    hk ▸ highShelf_zeroGain cos hg hf hsr
  rw [hpeak, hlow, hhigh]
  exact ⟨peakingFormula_transparent _, lowShelfFormula_transparent, highShelfFormula_transparent⟩

end Sys2Proof.Machine
end

section
/-! PROOFS. The commands of the pitch shifter (spec/42_pitch_shifter.md R156 to R160): what PS.INIT creates, what
PS.PROC answers and stores on both sides of the dead-band, and the place of the read cursor after either. -/

namespace Sys2Proof.Machine

open Sys2Proof Sys2Proof.Claims NUM

/-! ## The model's words for R156 to R159 -/

theorem clamp_ratio_eq_clampTo (ratio : NUM) :
    theParams.clamp ratio theParams.pitchMin theParams.pitchMax = clampTo ⟨0x3F000000#32⟩ ⟨0x40000000#32⟩ ratio := by
  rw [theParams_pitchMin, theParams_pitchMax]
  rfl

theorem outsideDeadband_eq_lt (rc : NUM) :
    outsideDeadband theParams rc = NUM.lt ⟨0x3CA3D70A#32⟩ (rc.sub NUM.one).abs := by
  rw [outsideDeadband, theParams_pitchDeadband]
  rfl

theorem cursorBack_eq_emod {size : Nat} (hsize : 0 < size) (cur d : Nat) :
    (cursorBack size cur d : Int) = ((cur : Int) - d) % size :=
  Int.toNat_of_nonneg (Int.emod_nonneg _ (by omega))

theorem anchor_eq_ofInt {size : Nat} (hsize : 0 < size) (w minGap : Nat) :
    anchor Num.binary32 size w minGap = ofInt (((w : Int) - minGap) % size) :=
  congrArg ofInt (cursorBack_eq_emod hsize w minGap)

/-! ## The commands -/

section

variable {s : State} (hrun : s.run = .stopped)

include hrun

theorem exec_psInit {sr : Word} (hsr : 0 < sr.toInt) :
    exec (.psInit sr) s = .next (answeredOk { s with ps := PitchShifter.created theParams sr.toInt }) :=
  State.guarded_pass (by simp [stoppedCheck, rangeCheck, hrun, i32, hsr])

/-- A PS.PROC that no check refuses stores the shifter after its sample and answers the sample's output. -/
theorem exec_psProc {x ratio y : NUM} {ps : PitchShifter} (hx : x.isFinite = true) (hratio : ratio.isFinite = true)
    (hinit : s.ps.init = true) (hp : s.ps.process theParams x ratio = .ok (ps, y)) :
    exec (.psProc x ratio) s = .next (answered { s with ps := ps } 0x00000000#32 y.bits) := by
  have hshift : s.shift theParams (theParams.f32 x.bits) (theParams.f32 ratio.bits) = .ok ({ s with ps := ps }, y) :=
    State.shift_ok.2 ⟨ps, hp, rfl⟩
  change s.guarded _ (completeValue _ (s.shift theParams _ _)) = _
  rw [State.guarded_pass (by simp [finiteCheck, stoppedCheck, initCheck, hx, hratio, hrun, hinit]), hshift]
  rfl

end

/-- Settles O26: no check of PS.INIT fails, and what it creates is anchored at an integer cursor. -/
theorem pitchShifterIsCreated : Obligations.PitchShifterIsCreated := by
  intro s sr hrun hsr size minGap
  have hsize : 0 < size := by omega
  have hanchor := anchor_eq_ofInt hsize 0 minGap
  rw [Nat.cast_zero] at hanchor
  rw [exec_psInit hrun hsr, ← hanchor]
  rfl

/-- Settles O27: the sample of PS.PROC on each side of the dead-band. -/
theorem pitchShifterProcessesOneSample : Obligations.PitchShifterProcessesOneSample := by
  intro s x ratio hrun hx hratio hinit hw hwf size rc w home
  have hsize : 0 < size := Nat.zero_lt_of_lt hw
  have hhome : anchor Num.binary32 size w s.ps.minGap = home := anchor_eq_ofInt hsize w s.ps.minGap
  have hrc : theParams.clamp ratio theParams.pitchMin theParams.pitchMax = rc := clamp_ratio_eq_clampTo ratio
  have hself : (s.ps.buf.write NUM.zero s.ps.w x).read NUM.zero s.ps.w = x := Memory.read_write_self hwf
  have hother (i : Nat) (hi : i ≠ s.ps.w) :
      (s.ps.buf.write NUM.zero s.ps.w x).read NUM.zero i = s.ps.buf.read NUM.zero i := Memory.read_write_ne hi _
  rw [← outsideDeadband_eq_lt]
  cases hd : outsideDeadband theParams rc with
  | false =>
    have hp := PitchShifter.process_inside (p := theParams) (x := x) hw (hrc ▸ hd)
    exact ⟨_, _, _, exec_psProc hrun hx hratio hinit hp, hself, hother, rfl, hhome⟩
  | true =>
    obtain ⟨y, hy, hp⟩ := PitchShifter.process_outside (p := theParams) (x := x) hw (hrc ▸ hd)
    rw [interpolate_eq _ _ hsize] at hy
    refine ⟨_, _, y, exec_psProc hrun hx hratio hinit hp, hself, hother, (Except.ok.inj hy).symm, ?_⟩
    rw [hrc, ← hhome]
    rfl

/-! ## The place of the read cursor -/

/-- Settles O28: the distance is `minGap` reduced by the size, and no operation of it rounds. -/
theorem anchorIsMinGapAway : Obligations.AnchorIsMinGapAway :=
  fun _ _ _ hsize hw hgap => circularDistance_anchor hsize hw hgap

/-- R160: a sample puts a read cursor in range in place; unlike `process_keeps_ok` it does not ask that the cursor
was in the band. -/
theorem PitchShifter.process_placed {ps ps' : PitchShifter} {x ratio y : NUM} (h2 : 2 ≤ ps.size)
    (h24 : ps.size ≤ 2 ^ 24) (hgap : ps.minGap = max 64 (2 * ps.size / 5)) (hcursor : ps.cursorOk = true)
    (hp : ps.process theParams x ratio = .ok (ps', y)) : ps'.Placed := by
  obtain ⟨hw, -⟩ := process_ok hp
  have hnext := cursorNext_lt ps.w (by omega : 0 < ps.size)
  cases hd : outsideDeadband theParams (theParams.clamp ratio theParams.pitchMin theParams.pitchMax) with
  | false =>
    rw [process_inside hw hd] at hp
    cases hp
    exact placed_of_anchored h24 hnext hgap rfl
  | true =>
    obtain ⟨_, -, heq⟩ := process_outside (x := x) hw hd
    rw [heq] at hp
    cases hp
    obtain ⟨hfin, h0, h1⟩ := (cursorOk_iff h24).1 hcursor
    obtain ⟨hrc, hrc0, hrc2⟩ := clamped_ratio_bounds rfl hd
    obtain ⟨hfin', h0', h1', h128⟩ := readAdvance_inRange h24 hfin h0 h1 hrc hrc0 hrc2 h2
    exact placed_of_driftChecked h24 hnext hgap hfin' h0' h1' h128 rfl

/-- Where the band is not empty, a read cursor in place is in range and in the band. -/
theorem PitchShifter.Placed.bounds {ps : PitchShifter} (h : ps.Placed) (h128 : 128 ≤ ps.size) :
    (NUM.zero.le ps.r = true ∧ ps.r.lt (ofInt ps.size) = true) ∧
      within (ofInt ps.minGap) (ofInt ((ps.size : Int) - ps.minGap))
        (circularDistance Num.binary32 ps.size ps.w ps.r) :=
  ⟨Bool.and_eq_true_iff.1 h.1, inRange_iff.1 (h.2 h128)⟩

/-- Settles O29: the anchor and a cursor that passes the drift check are in place, and the band is not empty. -/
theorem pitchDistanceStaysInTheBand : Obligations.PitchDistanceStaysInTheBand := by
  constructor
  · intro p p' x ratio y h128 h24 hgap horder hp
    have hplaced := PitchShifter.process_placed (by omega) h24 hgap (Bool.and_eq_true_iff.2 horder) hp
    obtain ⟨-, _, rfl⟩ := PitchShifter.process_ok hp
    exact ⟨rfl, rfl, hplaced.bounds h128⟩
  · intro sr hlo hhi
    have hsize : (PitchShifter.created theParams sr).size = 2 * sr.toNat := rfl
    obtain ⟨-, -, -, hplaced⟩ := (PitchShifter.ok_iff _).1 (PitchShifter.created_ok (by omega : 0 < sr))
    exact (hplaced (by omega)).bounds (by omega)

end Sys2Proof.Machine
end

section
/-! PROOFS. The commands of the combs and the reverb engine (spec/43_reverb.md R171 to R177): one call of a comb as its
next record and its output, the silence of a fresh comb, and the reverb on both sides of the wetness 0. -/

namespace Sys2Proof.Machine

open Sys2Proof Sys2Proof.Claims NUM

/-! ## One call of a comb (R172) -/

section

variable {F : Type} [DecidableEq F] {N : Num F}

/-- The comb after the input `x`. -/
def Comb.stepped (N : Num F) (c : Comb F) (x : F) : Comb F :=
  { c with
    buf := c.buf.write N.zero c.cur (N.add x (N.mul (c.buf.read N.zero c.cur) c.fb)),
    cur := cursorNext c.len c.cur }

theorem Comb.process_eq_stepped {c : Comb F} (hcur : c.cur < c.len) (x : F) :
    c.process N x = .ok (c.stepped N x, c.buf.read N.zero c.cur) :=
  Comb.process_ok.2 ⟨hcur, rfl, rfl⟩

theorem Comb.stepped_read_cur (N : Num F) {c : Comb F} (hwf : c.buf.wf N.zero c.len = true) (x : F) :
    (c.stepped N x).buf.read N.zero c.cur = N.add x (N.mul (c.buf.read N.zero c.cur) c.fb) :=
  Memory.read_write_self hwf

theorem Comb.stepped_read_ne (N : Num F) (c : Comb F) (x : F) {i : Nat} (hi : i ≠ c.cur) :
    (c.stepped N x).buf.read N.zero i = c.buf.read N.zero i :=
  Memory.read_write_ne hi _

/-! ## The silence of a fresh comb -/

/-- The next `n` words under the cursor lie before the end of the buffer and are zero, so that the next `n` calls
answer zero. -/
structure Comb.SilentFor (N : Num F) (c : Comb F) (n : Nat) : Prop where
  room : c.cur + n ≤ c.len
  silent : ∀ i, c.cur ≤ i → i < c.cur + n → c.buf.read N.zero i = N.zero

omit [DecidableEq F] in
theorem Comb.silentFor_of_cleared {c : Comb F} {n : Nat} (hcur : c.cur = 0) (hbuf : c.buf = []) (hn : n ≤ c.len) :
    c.SilentFor N n :=
  ⟨by omega, fun i _ _ => hbuf ▸ Memory.read_nil i⟩

/-- A call writes behind the cursor only; the cursor wraps at the last word, where no silence is left to keep. -/
theorem Comb.SilentFor.stepped {c : Comb F} {n : Nat} (h : c.SilentFor N (n + 1)) (x : F) :
    (c.stepped N x).SilentFor N n := by
  obtain ⟨hroom, hsilent⟩ := h
  rcases Nat.eq_zero_or_pos n with rfl | hn
  · have hnext : cursorNext c.len c.cur < c.len := cursorNext_lt _ (by omega)
    exact ⟨hnext.le, fun i hlo hhi => absurd hhi (Nat.not_lt.2 hlo)⟩
  · have hnext : (c.stepped N x).cur = c.cur + 1 := Nat.mod_eq_of_lt (by omega)
    refine ⟨?_, fun i hlo hhi => ?_⟩
    · have hlen : (c.stepped N x).len = c.len := rfl
      omega
    · rw [Comb.stepped_read_ne N c x (by omega)]
      exact hsilent i (by omega) (by omega)

/-- R172: a silent comb answers every input of a sequence with zero. -/
theorem Comb.SilentFor.foldlM_process {c : Comb F} {xs : List F} (h : c.SilentFor N xs.length) (ys : List F) :
    ∃ c', xs.foldlM (fun (p : Comb F × List F) x => (p.1.process N x).map (fun q => (q.1, p.2 ++ [q.2]))) (c, ys) =
      (.ok (c', ys ++ List.replicate xs.length N.zero) : Except Fault (Comb F × List F)) := by
  induction xs generalizing c ys with
  | nil => exact ⟨c, by simp [pure, Except.pure]⟩
  | cons x xs ih =>
    obtain ⟨hroom, hsilent⟩ := h
    rw [List.length_cons] at hroom hsilent
    have hcall : c.process N x = .ok (c.stepped N x, N.zero) := by
      rw [Comb.process_eq_stepped (by omega), hsilent c.cur le_rfl (by omega)]
    obtain ⟨c', hrest⟩ := ih (Comb.SilentFor.stepped ⟨hroom, hsilent⟩ x) (ys ++ [N.zero])
    refine ⟨c', ?_⟩
    rw [List.foldlM_cons, hcall, List.length_cons, List.replicate_succ, List.append_cons]
    exact hrest

/-! ## One call of the reverb engine (R175) -/

/-- Three combs with their cursors in their buffers step each, and their outputs are averaged. -/
theorem combsStepped_eq_map {cb : Vector (Comb F) 3} (hcur : ∀ k : Fin 3, (cb.get k).cur < (cb.get k).len) (x : F) :
    combsStepped N cb x = .ok (cb.map (Comb.stepped N · x),
      N.div (N.add (N.add ((cb.get 0).buf.read N.zero (cb.get 0).cur) ((cb.get 1).buf.read N.zero (cb.get 1).cur))
        ((cb.get 2).buf.read N.zero (cb.get 2).cur)) (N.ofInt 3)) := by
  refine combsStepped_ok.2 ⟨_, _, _, _, _, _, Comb.process_eq_stepped (hcur 0) x, Comb.process_eq_stepped (hcur 1) x,
    Comb.process_eq_stepped (hcur 2) x, vector_ext_get fun k => ?_, rfl⟩
  rw [Vector.get_map]
  match k with
  | 0 | 1 | 2 => rfl

end

theorem clamp_wet_eq_clampTo (wet : NUM) :
    theParams.clamp wet theParams.wetMin theParams.wetMax = clampTo NUM.zero NUM.one wet := rfl

/-- The clamping of the wetness does not move it across 0. -/
theorem clampTo_unit_le_zero (wet : NUM) : (clampTo NUM.zero NUM.one wet).le NUM.zero = wet.le NUM.zero := by
  have hzero : NUM.zero.order = 0 := by decide
  have hone : NUM.one.order = 0x3F800000 := by decide
  unfold clampTo
  split
  · next hlt =>
    simp only [NUM.lt, Bool.and_eq_true, decide_eq_true_eq] at hlt
    obtain ⟨⟨hnan, _⟩, horder⟩ := hlt
    have hle : wet.le NUM.zero = true := by
      simp only [NUM.le, hnan, Bool.true_and, Bool.and_eq_true, decide_eq_true_eq]
      exact ⟨by decide, horder.le⟩
    rw [hle]
    decide
  · split
    · next hgt =>
      simp only [NUM.lt, Bool.and_eq_true, decide_eq_true_eq] at hgt
      have hnot : ¬ wet.order ≤ NUM.zero.order := by omega
      have hle : wet.le NUM.zero = false := by simp only [NUM.le, hnot, decide_false, Bool.and_false]
      rw [hle]
      decide
    · rfl

section

variable {cb : Vector Comb 3} {wet : NUM}

/-- R175, R177: at wetness 0 or below no comb is stepped. -/
theorem reverbProcess_dry (hwet : wet.le NUM.zero = true) (x : NUM) :
    reverbProcess theParams cb x wet = .ok (cb, x) := by
  exact if_pos ((clampTo_unit_le_zero wet).trans hwet)

theorem reverbProcess_wet {cb' : Vector Comb 3} {x mean : NUM} (hwet : wet.le NUM.zero = false)
    (hstep : combsStepped Num.binary32 cb x = .ok (cb', mean)) :
    reverbProcess theParams cb x wet = .ok (cb',
      (x.mul (NUM.one.sub (clampTo NUM.zero NUM.one wet))).add ((clampTo NUM.zero NUM.one wet).mul mean)) := by
  have hle : theParams.le (theParams.clamp wet theParams.wetMin theParams.wetMax) theParams.zero = false :=
    (clampTo_unit_le_zero wet).trans hwet
  unfold reverbProcess
  dsimp only
  rw [hle, if_neg Bool.false_ne_true, theParams_toNum, hstep]
  rfl

end

/-! ## The commands -/

theorem combIndex_of_lt {u : BitVec 8} (hu : u.toNat < 3) : combIndex u = ⟨u.toNat, hu⟩ := dif_pos hu

/-- R173, R174: a comb of the reverb, from its delay in tenths of a millisecond and its feedback. -/
theorem combCreated_of_params {k : Fin 3} {tenths : Nat} {fb : NUM} (hdelay : theParams.combTenthMs.get k = tenths)
    (hfb : theParams.combFb.get k = fb) (sr : Int) :
    Comb.created (combLength theParams k sr) (theParams.combFb.get k) =
      Comb.created (max 1 ((2 * tenths * sr.toNat + 10000) / 20000)) fb := by
  rw [combLength, theParams_combLen, combLengthDefault, hdelay, hfb, Nat.mul_assoc]

theorem combsCreated_theParams (sr : Int) :
    combsCreated theParams sr =
      #v[Comb.created (max 1 ((2 * 297 * sr.toNat + 10000) / 20000)) ⟨0x3F47AE14#32⟩,
        Comb.created (max 1 ((2 * 371 * sr.toNat + 10000) / 20000)) ⟨0x3F400000#32⟩,
        Comb.created (max 1 ((2 * 411 * sr.toNat + 10000) / 20000)) ⟨0x3F333333#32⟩] := by
  have hfb (k : Fin 3) : theParams.combFb.get k = #v[⟨0x3F47AE14#32⟩, ⟨0x3F400000#32⟩, ⟨0x3F333333#32⟩].get k := by
    rw [theParams_combFb]
  refine vector_ext_get fun k => ?_
  match k with
  | 0 => exact combCreated_of_params rfl (hfb 0) sr
  | 1 => exact combCreated_of_params rfl (hfb 1) sr
  | 2 => exact combCreated_of_params rfl (hfb 2) sr

section

variable {s : State} (hrun : s.run = .stopped)

include hrun

theorem exec_cbInit {u : BitVec 8} (hu : u.toNat < 3) {len : Word} {fb : NUM} (hfb : fb.isFinite = true)
    (hlen : 0 < len.toInt) :
    exec (.cbInit u len fb) s =
      .next (answeredOk { s with cb := s.cb.set u.toNat (Comb.created len.toInt.toNat fb) }) := by
  change s.guarded _ _ = _
  rw [State.guarded_pass (by simp [finiteCheck, stoppedCheck, rangeCheck, hfb, hrun, hu, i32, hlen]),
    combIndex_of_lt hu]
  rfl

theorem exec_rvInit {sr : Word} (hsr : 0 < sr.toInt) :
    exec (.rvInit sr) s = .next (answeredOk { s with cb := combsCreated theParams sr.toInt }) :=
  State.guarded_pass (by simp [stoppedCheck, rangeCheck, hrun, i32, hsr])

/-- A CB.PROC that no check refuses stores the comb after its sample and answers the sample's output. -/
theorem exec_cbProc {u : BitVec 8} (hu : u.toNat < 3) {x y : NUM} {c : Comb} (hx : x.isFinite = true)
    (hinit : s.cb[u.toNat].init = true) (hp : s.cb[u.toNat].process Num.binary32 x = .ok (c, y)) :
    exec (.cbProc u x) s = .next (answered { s with cb := s.cb.set u.toNat c } 0x00000000#32 y.bits) := by
  have hget : s.cb.get ⟨u.toNat, hu⟩ = s.cb[u.toNat] := rfl
  have hcomb : s.comb Num.binary32 ⟨u.toNat, hu⟩ x = .ok (s.setCb ⟨u.toNat, hu⟩ c, y) := State.comb_ok.2 ⟨c, hp, rfl⟩
  change s.guarded _ (completeValue _ (s.comb Num.binary32 _ x)) = _
  rw [combIndex_of_lt hu, hcomb,
    State.guarded_pass (by simp [finiteCheck, stoppedCheck, rangeCheck, initCheck, hx, hrun, hu, hget, hinit])]
  rfl

/-- A RV.PROC that no check refuses stores the combs after its sample and answers the sample's output. -/
theorem exec_rvProc {x wet y : NUM} {cb : Vector Comb 3} (hx : x.isFinite = true) (hwet : wet.isFinite = true)
    (hinit : ∀ k : Fin 3, (s.cb.get k).init = true) (hp : reverbProcess theParams s.cb x wet = .ok (cb, y)) :
    exec (.rvProc x wet) s = .next (answered { s with cb := cb } 0x00000000#32 y.bits) := by
  have hall : combsInit s.cb = true := all_iff_get.2 hinit
  have hreverb : s.reverb theParams x wet = .ok ({ s with cb := cb }, y) := State.reverb_ok.2 ⟨cb, hp, rfl⟩
  change s.guarded _ (completeValue _ (s.reverb theParams x wet)) = _
  rw [hreverb, State.guarded_pass (by simp [finiteCheck, stoppedCheck, initCheck, hx, hwet, hrun, hall])]
  rfl

end

/-- Settles O30: no check of either command fails, and the record each stores is that of a fresh comb. -/
theorem combsAreCreated : Obligations.CombsAreCreated := by
  refine ⟨fun s u hu len fb hrun hfb hlen => exec_cbInit hrun hu hfb hlen, fun s sr hrun hsr => ?_⟩
  rw [exec_rvInit hrun hsr, combsCreated_theParams]
  rfl

/-- Settles O31: the one word that a call writes is the one it has read. -/
theorem combProcessesOneSample : Obligations.CombProcessesOneSample := by
  intro s u hu x hrun hx c hinit hcur hwf out
  exact ⟨(c.stepped Num.binary32 x).buf, exec_cbProc hrun hu hx hinit (Comb.process_eq_stepped hcur x),
    Comb.stepped_read_cur Num.binary32 hwf x, fun i hi => Comb.stepped_read_ne Num.binary32 c x hi⟩

/-- Settles O32: a cleared comb is silent for its length, and each call uses up one word of the silence. -/
theorem freshCombIsSilentForItsLength : Obligations.FreshCombIsSilentForItsLength := by
  intro len fb xs _ hxs
  have hsilent : (⟨len, fb, 0, [], true⟩ : Comb).SilentFor Num.binary32 xs.length :=
    Comb.silentFor_of_cleared rfl rfl hxs
  obtain ⟨c, hc⟩ := hsilent.foldlM_process []
  exact ⟨c, _, hc, rfl⟩

/-- Settles O33: the clamped wetness is at most 0 too. -/
theorem dryReverbIsTransparent : Obligations.DryReverbIsTransparent :=
  fun _ x _ hrun hx hwet hinit hdry => exec_rvProc hrun hx hwet hinit (reverbProcess_dry hdry x)

/-- Settles O34: the wet branch steps each comb by itself. -/
theorem wetReverbMixesTheMean : Obligations.WetReverbMixesTheMean := by
  intro s x wet hrun hx hwet hcombs hpos out we mean
  have hstep := combsStepped_eq_map (N := Num.binary32) (fun k => (hcombs k).2.1) x
  refine ⟨_, exec_rvProc hrun hx hwet (fun k => (hcombs k).1) (reverbProcess_wet hpos hstep), fun k => ?_⟩
  obtain ⟨hinit, -, hwf⟩ := hcombs k
  rw [Vector.get_map]
  exact ⟨rfl, rfl, hinit, rfl, Comb.stepped_read_cur Num.binary32 hwf x,
    fun i hi => Comb.stepped_read_ne Num.binary32 _ x hi⟩

end Sys2Proof.Machine
end

section
/-! PROOFS. The commands of the echo line (spec/44_echo.md R186 to R192): what EC.INIT creates, how EC.CFG finds room
for the delay it takes, and one call of the line as its next record and its output. -/

namespace Sys2Proof.Machine

open Sys2Proof Sys2Proof.Claims NUM

/-! ## One call of the line (R188) -/

section

variable {F : Type} {N : Num F}

/-- The word `d` behind the cursor. -/
def Echo.delayed (N : Num F) (ec : Echo F) : F := ec.buf.read N.zero (cursorBack ec.len ec.cur ec.d)

/-- What the line answers to the input `x`. -/
def Echo.mixed (N : Num F) (ec : Echo F) (x : F) : F :=
  N.add (N.mul x (N.sub N.one ec.mix)) (N.mul (ec.delayed N) ec.mix)

section

variable [DecidableEq F]

/-- The line after the input `x`. -/
def Echo.stepped (N : Num F) (ec : Echo F) (x : F) : Echo F :=
  { ec with
    buf := ec.buf.write N.zero ec.cur (N.add x (N.mul (ec.delayed N) ec.fb)),
    cur := cursorNext ec.len ec.cur }

/-- A cursor in its buffer is enough: the read index is reduced by the length. -/
theorem Echo.process_eq_stepped {ec : Echo F} (hcur : ec.cur < ec.len) (x : F) :
    ec.process N x = .ok (ec.stepped N x, ec.mixed N x) :=
  Echo.process_ok.2 ⟨⟨cursorBack_lt _ _ (Nat.zero_lt_of_lt hcur), hcur⟩, rfl, rfl⟩

theorem Echo.stepped_read_cur (N : Num F) {ec : Echo F} (hwf : ec.buf.wf N.zero ec.len = true) (x : F) :
    (ec.stepped N x).buf.read N.zero ec.cur = N.add x (N.mul (ec.delayed N) ec.fb) :=
  Memory.read_write_self hwf

theorem Echo.stepped_read_ne (N : Num F) (ec : Echo F) (x : F) {i : Nat} (hi : i ≠ ec.cur) :
    (ec.stepped N x).buf.read N.zero i = ec.buf.read N.zero i :=
  Memory.read_write_ne hi _

end

/-- R191: at the mix 0 the input passes with the factor 1, and the delayed word adds a zero. -/
theorem Echo.mixed_of_isZero (hN : N.Lawful) {ec : Echo F} {x : F} (hmix : N.isZero ec.mix = true)
    (hx : N.isFinite x = true) (hdelayed : N.isFinite (ec.delayed N) = true) : N.same (ec.mixed N x) x := by
  have hdry : N.mul x (N.sub N.one ec.mix) = x := by rw [(hN.one_sub_zero _ hmix).1, (hN.one_mul x hx).2]
  have hwet : N.isZero (N.mul (ec.delayed N) ec.mix) = true := (hN.zero_mul _ _ hdelayed hmix).2
  rw [Echo.mixed, hdry]
  exact (hN.add_zero x _ hx hwet).1

end

/-! ## The model's words for R187 -/

theorem clamp_feedback_eq_clampTo (fb : NUM) :
    theParams.clamp fb theParams.zero theParams.echoFbMax = clampTo NUM.zero ⟨0x3F733333#32⟩ fb := by
  rw [theParams_echoFbMax]
  rfl

theorem within_clampTo {lo hi v : NUM} (h : lo.le hi = true) (hv : v.isNaN = false) : within lo hi (clampTo lo hi v) :=
  inRange_iff.1 (inRange_clamp h hv)

/-- ECHO_MAX_LEN is unbounded: the delay is only kept from being negative. -/
theorem echoDelay_theParams (delay : Int) : echoDelay theParams delay = (max delay 0).toNat := by
  simp only [echoDelay, theParams_echoMaxLen]
  omega

theorem echoGrown_theParams (d : Nat) : echoGrown theParams d = max (3 * d / 2) (d + 1) := rfl

/-- R187 with the constants written out: the line keeps its room where the delay fits and is cleared where it grows. -/
theorem Echo.configured_theParams (ec : Echo) (delay : Int) (mix fb : NUM) :
    let d := (max delay 0).toNat
    let m := clampTo NUM.zero NUM.one mix
    let f := clampTo NUM.zero ⟨0x3F733333#32⟩ fb
    ec.configured theParams delay mix fb =
      if ec.len ≤ d then ⟨max (3 * d / 2) (d + 1), 0, d, m, f, [], ec.init⟩
      else { ec with d := d, mix := m, fb := f } := by
  unfold Echo.configured
  dsimp only
  rw [echoDelay_theParams, echoGrown_theParams, clamp_wet_eq_clampTo, clamp_feedback_eq_clampTo]
  split
  · rfl
  · rfl

/-- R190: after EC.CFG the line has room for its delay, and it has not shrunk. -/
theorem Echo.configured_room (ec : Echo) (delay : Int) (mix fb : NUM) :
    (ec.configured theParams delay mix fb).d < (ec.configured theParams delay mix fb).len ∧
      ec.len ≤ (ec.configured theParams delay mix fb).len := by
  rw [Echo.configured_theParams]
  split
  case isTrue hgrow =>
    dsimp only
    omega
  case isFalse hfits => exact ⟨not_le.1 hfits, le_rfl⟩

theorem Echo.configured_mix (ec : Echo) (delay : Int) (mix fb : NUM) :
    (ec.configured theParams delay mix fb).mix = clampTo NUM.zero NUM.one mix := rfl

theorem Echo.configured_fb (ec : Echo) (delay : Int) (mix fb : NUM) :
    (ec.configured theParams delay mix fb).fb = clampTo NUM.zero ⟨0x3F733333#32⟩ fb :=
  clamp_feedback_eq_clampTo fb

/-! ## The commands -/

section

variable {s : State} (hrun : s.run = .stopped)

include hrun

theorem exec_ecInit {len : Word} (hlen : 0 < len.toInt) :
    exec (.ecInit len) s = .next (answeredOk { s with ec := Echo.created Num.binary32 len.toInt.toNat }) :=
  State.guarded_pass (by simp [stoppedCheck, rangeCheck, hrun, i32, hlen])

theorem exec_ecCfg {mix fb : NUM} (delay : Word) (hmix : mix.isFinite = true) (hfb : fb.isFinite = true)
    (hinit : s.ec.init = true) :
    exec (.ecCfg delay mix fb) s =
      .next (answeredOk { s with ec := s.ec.configured theParams delay.toInt mix fb }) :=
  State.guarded_pass (by simp [finiteCheck, stoppedCheck, initCheck, hmix, hfb, hrun, hinit])

/-- An EC.PROC that no check refuses stores the line after its sample and answers the sample's output. -/
theorem exec_ecProc {x y : NUM} {ec : Echo} (hx : x.isFinite = true) (hinit : s.ec.init = true)
    (hp : s.ec.process Num.binary32 x = .ok (ec, y)) :
    exec (.ecProc x) s = .next (answered { s with ec := ec } 0x00000000#32 y.bits) := by
  have hecho : s.echo Num.binary32 x = .ok ({ s with ec := ec }, y) := State.echo_ok.2 ⟨ec, hp, rfl⟩
  change s.guarded _ (completeValue _ (s.echo Num.binary32 x)) = _
  rw [State.guarded_pass (by simp [finiteCheck, stoppedCheck, initCheck, hx, hrun, hinit]), hecho]
  rfl

end

/-- Settles O35: no check of EC.INIT fails. -/
theorem echoLineIsCreated : Obligations.EchoLineIsCreated :=
  fun _ _ hrun hlen => exec_ecInit hrun hlen

/-- Settles O36: no check of EC.CFG fails, and the record it stores is that of R187 on both sides of the growth test. -/
theorem echoLineIsConfigured : Obligations.EchoLineIsConfigured := by
  intro s delay mix fb hrun hmix hfb hinit d m f
  rw [exec_ecCfg hrun delay hmix hfb hinit, Echo.configured_theParams, ← hinit]

/-- Settles O37: a growth exceeds the delay, no growth means that it fits, and finite operands clamp into range. -/
theorem echoDelayStaysBelowLength : Obligations.EchoDelayStaysBelowLength := by
  intro s t delay mix fb hexec hmix hfb hrun hinit
  have ht := (Host.Outcome.next.inj ((exec_ecCfg hrun delay hmix hfb hinit).symm.trans hexec)).symm
  have hec : t.ec = s.ec.configured theParams delay.toInt mix fb := congrArg State.ec ht
  obtain ⟨hroom, hgrows⟩ := s.ec.configured_room delay.toInt mix fb
  rw [hec, Echo.configured_mix, Echo.configured_fb]
  exact ⟨hroom, hgrows, within_clampTo (by decide) (isNaN_of_finite hfb),
    within_clampTo (by decide) (isNaN_of_finite hmix)⟩

/-- Settles O38: the one word that a call writes is the one at the cursor, and a mix of 0 leaves the input alone. -/
theorem echoProcessesOneSample : Obligations.EchoProcessesOneSample := by
  constructor
  · intro s x hrun hx hinit hcur hwf dl
    exact ⟨(s.ec.stepped Num.binary32 x).buf, exec_ecProc hrun hx hinit (Echo.process_eq_stepped hcur x),
      Echo.stepped_read_cur Num.binary32 hwf x, fun i hi => Echo.stepped_read_ne Num.binary32 s.ec x hi⟩
  · intro F _ N ec x hN hcur hmix hx hwords
    exact ⟨_, _, Echo.process_eq_stepped hcur x, Echo.mixed_of_isZero hN hmix hx (hwords _)⟩

end Sys2Proof.Machine
end

section
/-! PROOFS. The command of the voice presets (spec/45_voice_preset.md R201 to R203): which preset a 16-bit code
selects, and the record that VP.LOAD stores. -/

namespace Sys2Proof.Machine

open Sys2Proof Sys2Proof.Claims

/-! ## The preset of a code (R202) -/

theorem code_eq_iff (c : BitVec 16) {k : Nat} (hk : k < 2 ^ 16) :
    (c.toNat : Int) = k ↔ c = BitVec.ofNat 16 k := by
  rw [Int.natCast_inj, ← BitVec.toNat_inj, BitVec.toNat_ofNat, Nat.mod_eq_of_lt hk]

/-- The immediate is read without a sign, so a code from 0x8000 up is above 5 and not below 0. -/
theorem Preset.ofCode_toNat (c : BitVec 16) :
    Preset.ofCode c.toNat =
      if c = 1#16 then .child else if c = 2#16 then .funny else if c = 3#16 then .robot
      else if c = 4#16 then .deep else if c = 5#16 then .alien else .normal := by
  simp only [Preset.ofCode, ← code_eq_iff c (k := 1) (by decide), ← code_eq_iff c (k := 2) (by decide),
    ← code_eq_iff c (k := 3) (by decide), ← code_eq_iff c (k := 4) (by decide), ← code_eq_iff c (k := 5) (by decide),
    Nat.cast_ofNat, Nat.cast_one]

/-! ## The command -/

/-- Every code is accepted, and nothing of the state enters the record that is stored. -/
theorem exec_vpLoad {s : State} (hrun : s.run = .stopped) (c : BitVec 16) :
    exec (.vpLoad c) s =
      .next (answeredOk { s with pc := PresetConfig.loaded theParams (Preset.ofCode c.toNat) }) :=
  State.guarded_pass (by simp [stoppedCheck, hrun])

/-- Settles O39: VP.LOAD stores the row of its code's preset, and the table holds the written words row by row. -/
theorem presetRowIsLoaded : Obligations.PresetRowIsLoaded := by
  intro s c hrun row
  have hrow : presetRow theParams (Preset.ofCode c.toNat) = row := by
    rw [Preset.ofCode_toNat]
    dsimp only [row]
    split_ifs
    · exact theParams_child
    · exact theParams_funny
    · exact theParams_robot
    · exact theParams_deep
    · exact theParams_alien
    · exact theParams_normal
  rw [exec_vpLoad hrun c, PresetConfig.loaded, hrow]

end Sys2Proof.Machine
end

section
/-! PROOFS. The commands of the voice modulator (spec/46_voice_transform.md R211 to R213): what VM.INIT creates, and
one sample of VM.PROC, stage by stage, as the next record and the output. -/

namespace Sys2Proof.Machine

open Sys2Proof Sys2Proof.Claims

/-! ## The stages of one sample (R212)

A stage is a conditional on the pair of its record and its value. Each equation moves the condition into the one phase
that the stage may step and into the value, so that the stages compose without a case split. -/

section

variable {F : Type}

theorem VoiceModulator.tremolo_eq (N : Num F) (row : PresetRow F) (vm : VoiceModulator F) (v : F) :
    vm.tremolo N row v =
      ({ vm with phT := if stageOn N row.vibratoDepth then phaseStep N vm.sr vm.phT row.vibratoRateHz else vm.phT },
        if stageOn N row.vibratoDepth then N.mul v (N.add N.one (N.mul row.vibratoDepth (N.sin vm.phT))) else v) := by
  unfold VoiceModulator.tremolo
  split
  · rfl
  · rfl

theorem VoiceModulator.ring_eq (N : Num F) (row : PresetRow F) (vm : VoiceModulator F) (v : F) :
    vm.ring N row v =
      ({ vm with phR := if stageOn N row.ringMix then phaseStep N vm.sr vm.phR row.ringFrequencyHz else vm.phR },
        if stageOn N row.ringMix then
          N.add (N.mul (N.sub N.one row.ringMix) v) (N.mul row.ringMix (N.mul v (N.sin vm.phR)))
        else v) := by
  unfold VoiceModulator.ring
  split
  · rfl
  · rfl

theorem VoiceModulator.warp_eq (p : Params F) (row : PresetRow F) (vm : VoiceModulator F) (v : F) :
    vm.warp p row v =
      ({ vm with
          phW := if stageOn p.toNum row.phaseDistortionAmount then phaseStep p.toNum vm.sr vm.phW p.warpHz
            else vm.phW },
        if stageOn p.toNum row.phaseDistortionAmount then
          p.sin (p.mul v (p.add p.one (p.mul row.phaseDistortionAmount (p.sin vm.phW))))
        else v) := by
  unfold VoiceModulator.warp
  split
  · rfl
  · rfl

/-- The record after one sample: no stage reads or steps the phase of another, and the value that passes through the
stages enters no phase (R213). -/
theorem VoiceModulator.process_fst (p : Params F) (row : PresetRow F) (vm : VoiceModulator F) (x : F) :
    (vm.process p row x).1 =
      { vm with
        phT := if stageOn p.toNum row.vibratoDepth then phaseStep p.toNum vm.sr vm.phT row.vibratoRateHz else vm.phT
        phR := if stageOn p.toNum row.ringMix then phaseStep p.toNum vm.sr vm.phR row.ringFrequencyHz else vm.phR
        phW := if stageOn p.toNum row.phaseDistortionAmount then phaseStep p.toNum vm.sr vm.phW p.warpHz
          else vm.phW } := by
  simp only [VoiceModulator.process, tremolo_eq, ring_eq, warp_eq]

/-- The output of one sample: each stage finds its phase as it stood before the sample, for a phase is used before it
is stepped and the stages before it leave it alone. -/
theorem VoiceModulator.process_snd (p : Params F) (row : PresetRow F) (vm : VoiceModulator F) (x : F) :
    (vm.process p row x).2 =
      (vm.warp p row (distortion p row (vm.ring p.toNum row (vm.tremolo p.toNum row x).2).2)).2 := by
  simp only [VoiceModulator.process, tremolo_eq, ring_eq, warp_eq]

end

/-- R212 with the drive of the distortion written out. -/
theorem distortion_theParams (row : PresetRow) (v : NUM) :
    distortion theParams row v =
      if NUM.zero.lt row.distortionAmount then
        (v.mul (NUM.one.add (row.distortionAmount.mul (NUM.ofInt 6)))).tanh
      else v := rfl

/-- R213 over binary32. The projections of `Num.binary32` are rewritten and not unfolded: `rfl` would go on to evaluate
the closed product `2·π`. -/
theorem phaseStep_binary32 (sr : Int) (ph rate : NUM) :
    phaseStep Num.binary32 sr ph rate =
      let twoPi := (NUM.ofInt 2).mul NUM.pi
      let q := ph.add ((twoPi.mul rate).div (NUM.ofInt sr))
      if twoPi.le q then q.sub twoPi else q := by
  dsimp only [phaseStep]
  rw [binary32_le, binary32_add, binary32_sub, binary32_mul, binary32_div, binary32_ofInt, binary32_pi]

/-! ## The commands -/

section

variable {s : State} (hrun : s.run = .stopped)

include hrun

theorem exec_vmInit {sr : Word} (hsr : 0 < sr.toInt) :
    exec (.vmInit sr) s = .next (answeredOk { s with vm := VoiceModulator.created Num.binary32 sr.toInt }) :=
  State.guarded_pass (by simp [stoppedCheck, rangeCheck, hrun, i32, hsr])

/-- A VM.PROC that no check refuses stores the modulator after its sample and answers the sample's output. -/
theorem exec_vmProc {x : NUM} (hx : x.isFinite = true) (hvm : s.vm.init = true) (hpc : s.pc.init = true) :
    exec (.vmProc x) s =
      .next (answered { s with vm := (s.vm.process theParams s.pc.row x).1 } 0x00000000#32
        (s.vm.process theParams s.pc.row x).2.bits) :=
  State.guarded_pass (by simp [finiteCheck, stoppedCheck, initCheck, hx, hrun, hvm, hpc])

end

/-- Settles O40: no check of VM.INIT fails, and the record it stores is that of a fresh modulator. -/
theorem voiceModulatorIsCreated : Obligations.VoiceModulatorIsCreated :=
  fun _ _ hrun hsr => exec_vmInit hrun hsr

/-- Settles O41: no check of VM.PROC fails, and its stages compose with each phase as it stood before the sample. -/
theorem voiceModulatorProcessesOneSample : Obligations.VoiceModulatorProcessesOneSample := by
  intro s x hrun hx hvm hpc row on twoPi phase v2 v3 v4 v5
  have htremolo : (s.vm.tremolo Num.binary32 row x).2 = v2 := by rw [VoiceModulator.tremolo_eq]; rfl
  have hring : (s.vm.ring Num.binary32 row v2).2 = v3 := by rw [VoiceModulator.ring_eq]; rfl
  have hdistortion : distortion theParams row v3 = v4 := distortion_theParams row v3
  have hwarp : (s.vm.warp theParams row v4).2 = v5 := by rw [VoiceModulator.warp_eq]; rfl
  have hvalue : (s.vm.process theParams row x).2 = v5 := by
    rw [VoiceModulator.process_snd, theParams_toNum, htremolo, hring, hdistortion, hwarp]
  rw [exec_vmProc hrun hx hvm hpc, hvalue, VoiceModulator.process_fst, theParams_warpHz, theParams_toNum]
  simp only [phaseStep_binary32]
  rfl

end Sys2Proof.Machine
end

section
/-! PROOFS. The level meter (spec/47_level_meter.md R226, R228): LM.FRAME answers the level, and the level as a root of
a mean of squares, which is no NaN before it is clamped, 0 on silence, and a function of the samples without order. -/

namespace Sys2Proof.NUM

/-! ## Quotients and roots of what is no NaN -/

/-- Binary32 does not overflow on integers up to `2^104`, exact or rounded. -/
theorem isFinite_ofInt_of_le_two_pow {i : Int} {k : Nat} (hk : k ≤ 104) (hi : i.natAbs ≤ 2 ^ k) :
    (ofInt i).isFinite = true := by
  obtain ⟨c, hc, -, hv⟩ := exists_absValue_eq false (m := 1) (by decide) (e := k) (by omega) (by omega)
  refine isFinite_of_magnitude_le hc ?_
  rw [ofInt, magnitude_roundPack]
  refine roundedMagnitude_le false ?_
  rw [hv, zpow_zero, mul_one, Nat.cast_one, one_mul, zpow_natCast]
  exact_mod_cast hi

theorem sign_signedInf (s : Bool) : (signedInf s).sign = s := sign_ofMagnitude ..

/-- Dividing by a finite datum other than zero gives no NaN, and the sign is that of the exact quotient, where the
dividend is infinite too. -/
theorem isNaN_sign_div {a b : NUM} (ha : a.isNaN = false) (hb : b.isFinite = true) (hb0 : b.isZero = false) :
    (a.div b).isNaN = false ∧ (a.div b).sign = (a.sign != b.sign) := by
  simp only [div, ha, isNaN_of_finite hb, isInf_of_finite hb, hb0, Bool.or_self, Bool.false_eq_true, if_false]
  split
  · exact ⟨isNaN_signedInf _, sign_signedInf _⟩
  · exact ⟨isNaN_roundPack .., sign_roundPack ..⟩

theorem isNaN_sqrt {x : NUM} (hx : x.isNaN = false) (hsign : x.sign = false) : x.sqrt.isNaN = false := by
  simp only [sqrt, hx, hsign, Bool.false_eq_true, if_false]
  split
  · exact hx
  · split
    · exact hx
    · exact isNaN_roundPack ..

end Sys2Proof.NUM

namespace Sys2Proof.Machine

open Sys2Proof Sys2Proof.Claims

/-! ## The sum of squares -/

/-- R226: the sum of squares as the integers of the rule. -/
theorem sumSquares_eq_sum (ss : List Half) :
    (sumSquares ss : Int) = (ss.map (fun h => h.toInt * h.toInt)).sum := by
  induction ss with
  | nil => rfl
  | cons h ss ih =>
    have hcons : sumSquares (h :: ss) = h.toInt.natAbs ^ 2 + sumSquares ss := rfl
    rw [hcons, Nat.cast_add, Nat.cast_pow, Int.natAbs_sq, ih, List.map_cons, List.sum_cons, pow_two]

theorem sumSquares_of_silence {ss : List Half} (h : ∀ x ∈ ss, x = 0#16) : sumSquares ss = 0 := by
  refine List.sum_eq_zero fun q hq => ?_
  obtain ⟨x, hx, rfl⟩ := List.mem_map.1 hq
  rw [h x hx]
  rfl

theorem sumSquares_perm {ss ss' : List Half} (h : ss.Perm ss') : sumSquares ss' = sumSquares ss :=
  (h.map _).sum_eq.symm

/-! ## The level -/

theorem fullScale_eq_ofInt : theParams.fullScale = NUM.ofInt 32768 := rfl

/-- R226 over binary32. -/
theorem level_theParams (ss : List Half) (n : Int) :
    level theParams ss n = clampTo NUM.zero NUM.one
      ((((NUM.ofInt (sumSquares ss)).div (NUM.ofInt n)).sqrt).div (NUM.ofInt 32768)) := by
  rw [level, fullScale_eq_ofInt, theParams_toNum]
  rfl

/-- R228 (a): the mean of the squares is not negative, so its root is no NaN, and what is no NaN is clamped into the
range. -/
theorem level_within (ss : List Half) {n : Int} (hn : 0 < n) (hn' : n < 2 ^ 31) :
    within NUM.zero NUM.one (level theParams ss n) := by
  obtain ⟨-, hn0, hnsign⟩ := NUM.ofInt_of_pos hn
  have hnfin : (NUM.ofInt n).isFinite = true := NUM.isFinite_ofInt_of_le_two_pow (k := 31) (by decide) (by omega)
  have hsign : (NUM.ofInt (sumSquares ss)).sign = false :=
    (NUM.sign_roundPack ..).trans (decide_eq_false (Int.natCast_nonneg _).not_gt)
  obtain ⟨hmean, hmeansign⟩ := NUM.isNaN_sign_div (NUM.isNaN_ofInt (sumSquares ss)) hnfin hn0
  have hroot := NUM.isNaN_sqrt hmean (by rw [hmeansign, hsign, hnsign]; rfl)
  rw [level_theParams]
  exact within_clampTo (by decide) (NUM.isNaN_sign_div hroot NUM.isFraction_scale.finite NUM.isZero_scale).1

/-- R228 (b), R10: the level of silence, over every carrier that keeps the laws. -/
theorem level_of_silence {F : Type} {p : Params F} (hp : p.Lawful) (hscale : p.fullScale = p.ofInt 32768)
    {ss : List Half} {n : Int} (hn : 0 < n) (h : ∀ x ∈ ss, x = 0#16) : level p ss n = p.zero := by
  have hmean : p.div (p.ofInt (sumSquares ss)) (p.ofInt n) = p.zero := by
    rw [sumSquares_of_silence h, Nat.cast_zero, hp.ofInt_zero, hp.zero_div n hn]
  have hroot : p.div (p.sqrt p.zero) p.fullScale = p.zero := by
    rw [hp.sqrt_zero, hscale, hp.zero_div 32768 (by decide)]
  have hone : p.lt p.one p.zero = false := by
    rw [← hp.ofInt_one, ← hp.ofInt_zero, (hp.ofInt_order 1 0 (by decide) (by decide) (by decide) (by decide)).1]
    rfl
  rw [level, hmean, hroot, Num.clamp, hone, if_neg Bool.false_ne_true, ite_self]

theorem level_perm {F : Type} (p : Params F) {ss ss' : List Half} (h : ss.Perm ss') (n : Int) :
    level p ss' n = level p ss n := by
  rw [level, level, sumSquares_perm h]

/-! ## The command -/

theorem exec_lmFrame {s : State} (hrun : s.run = .stopped) {ss : List Half} (hss : ss ≠ []) :
    exec (.lmFrame ss) s = .next (answered s 0x00000000#32 (level theParams ss ss.length).bits) :=
  State.guarded_pass (by simp [stoppedCheck, rangeCheck, hrun, List.length_pos_iff.2 hss])

/-- Settles O42: no check of LM.FRAME fails, and the sum of squares is the one the rule writes. -/
theorem levelIsAnswered : Obligations.LevelIsAnswered := by
  intro s ss hrun hss sum root
  rw [exec_lmFrame hrun hss, level_theParams, sumSquares_eq_sum]

/-- Settles O43: the bound is the clamp's, silence has the sum 0, and a permutation has the same sum and length. -/
theorem levelIsBoundedAndSymmetric : Obligations.LevelIsBoundedAndSymmetric := by
  refine ⟨fun ss hss hlen => ?_, fun F p ss n hp hscale hn h => level_of_silence hp hscale hn h⟩
  have hpos : (0 : Int) < ss.length := by exact_mod_cast List.length_pos_iff.2 hss
  refine ⟨level_within ss hpos (by exact_mod_cast hlen),
    fun h => level_of_silence binary32_lawful fullScale_eq_ofInt hpos h, fun ss' h => ?_⟩
  rw [← h.length_eq, level_perm theParams h]

end Sys2Proof.Machine
end

section
/-! PROOFS. A FRAME as its samples (spec/48_stream_processor.md R238): what a stream has emitted plays no part in its
samples, so a FRAME is the run of its samples from the latched state with two events appended, and the input may be cut
into frames anywhere (spec/70_reset_and_hazards.md R308). -/

namespace Sys2Proof.Machine

open Sys2Proof Sys2Proof.Claims

variable {F : Type}

/-! ## What was emitted plays no part -/

/-- The state with other events emitted. -/
def State.withOut (s : State F) (l : List Output) : State F := { s with out := l }

@[simp] theorem State.withOut_out (s : State F) (l : List Output) : (s.withOut l).out = l := rfl

theorem State.emit_eq_withOut (s : State F) (o : Output) : s.emit o = s.withOut (s.out ++ [o]) := rfl

theorem State.filters_withOut (N : Num F) (l : List Output) (us : List (Fin 9)) : ∀ (s : State F) (v : F),
    (s.withOut l).filters N us v = ((s.filters N us v).1.withOut l, (s.filters N us v).2) := by
  induction us with
  | nil => exact fun _ _ => rfl
  | cons u us ih => exact fun s v => ih (s.filter N u v).1 (s.filter N u v).2

theorem State.eqStage_withOut (p : Params F) (l : List Output) (s : State F) (v : F) :
    (s.withOut l).eqStage p v = ((s.eqStage p v).1.withOut l, (s.eqStage p v).2) := by
  have hact : (s.withOut l).act = s.act := rfl
  unfold State.eqStage
  rw [hact]
  split
  · exact State.filters_withOut ..
  · rfl

section

variable [DecidableEq F]

theorem State.shift_withOut {p : Params F} {s t : State F} {x ratio y : F} (h : s.shift p x ratio = .ok (t, y))
    (l : List Output) : (s.withOut l).shift p x ratio = .ok (t.withOut l, y) := by
  obtain ⟨ps, hps, rfl⟩ := State.shift_ok.1 h
  exact State.shift_ok.2 ⟨ps, hps, rfl⟩

theorem State.reverb_withOut {p : Params F} {s t : State F} {x wet y : F} (h : s.reverb p x wet = .ok (t, y))
    (l : List Output) : (s.withOut l).reverb p x wet = .ok (t.withOut l, y) := by
  obtain ⟨cb, hcb, rfl⟩ := State.reverb_ok.1 h
  exact State.reverb_ok.2 ⟨cb, hcb, rfl⟩

theorem State.echo_withOut {N : Num F} {s t : State F} {x y : F} (h : s.echo N x = .ok (t, y)) (l : List Output) :
    (s.withOut l).echo N x = .ok (t.withOut l, y) := by
  obtain ⟨ec, hec, rfl⟩ := State.echo_ok.1 h
  exact State.echo_ok.2 ⟨ec, hec, rfl⟩

theorem State.sample_withOut {p : Params F} {s t : State F} {x q : Half} (h : s.sample p x = .ok (t, q))
    (l : List Output) : (s.withOut l).sample p x = .ok (t.withOut l, q) := by
  obtain ⟨e, f, s3, v3, m, v, s5, v5, s6, v6, he, hf, h3, hm, hv, h5, h6, rfl, rfl⟩ := State.sample_ok h
  have he' : (s.withOut l).eqStage p (pcmIn p x) = (e.1.withOut l, e.2) := he ▸ State.eqStage_withOut ..
  have hf' : (e.1.withOut l).formantStage p.toNum e.2 = (f.1.withOut l, f.2) := hf ▸ State.filters_withOut ..
  have hm' : (s3.withOut l).modulate p v3 = (m.1.withOut l, m.2) := hm ▸ rfl
  have hv' : (m.1.withOut l).toneStage p.toNum m.2 = (v.1.withOut l, v.2) := hv ▸ State.filters_withOut ..
  exact State.sample_of_stages he' hf' (State.shift_withOut h3 l) hm' hv' (State.reverb_withOut h5 l)
    (State.echo_withOut h6 l)

theorem State.samples_withOut {p : Params F} {xs : List Half} : ∀ {s t : State F} {qs : List Half},
    s.samples p xs = .ok (t, qs) → ∀ l, (s.withOut l).samples p xs = .ok (t.withOut l, qs) := by
  induction xs with
  | nil =>
    intro s t qs h l
    cases h
    rfl
  | cons x xs ih =>
    intro s t qs h l
    obtain ⟨u, q, qs', h1, h2, rfl⟩ := State.samples_cons_ok.1 h
    exact State.samples_cons_ok.2 ⟨_, q, qs', State.sample_withOut h1 l, ih h2 l, rfl⟩

/-- The samples of two lists in turn. -/
theorem State.samples_append_ok {p : Params F} {xs ys : List Half} : ∀ {s t : State F} {qs : List Half},
    s.samples p (xs ++ ys) = .ok (t, qs) ↔
      ∃ u q1 q2, s.samples p xs = .ok (u, q1) ∧ u.samples p ys = .ok (t, q2) ∧ qs = q1 ++ q2 := by
  induction xs with
  | nil =>
    intro s t qs
    constructor
    · exact fun h => ⟨s, [], qs, rfl, h, rfl⟩
    · rintro ⟨u, q1, q2, h1, h2, rfl⟩
      cases h1
      exact h2
  | cons x xs ih =>
    intro s t qs
    rw [List.cons_append, State.samples_cons_ok]
    constructor
    · rintro ⟨u, q, qs', h1, h2, rfl⟩
      obtain ⟨v, q1, q2, h3, h4, rfl⟩ := ih.1 h2
      exact ⟨v, q :: q1, q2, State.samples_cons_ok.2 ⟨u, q, q1, h1, h3, rfl⟩, h4, rfl⟩
    · rintro ⟨v, q1, q2, h1, h2, rfl⟩
      obtain ⟨u, q, q1', h3, h4, rfl⟩ := State.samples_cons_ok.1 h1
      exact ⟨u, q, q1' ++ q2, h3, ih.2 ⟨v, q1', q2, h4, h2, rfl⟩, rfl⟩

/-! ## FRAME -/

/-- R238: a FRAME of a running stream with a count above 0 is the run of its samples from the latched state, with a
level event and the output frame appended to what was emitted. -/
theorem execFrameWith_next_iff {p : Params F} {n : Word} {ss : List Half} {s t : State F} (hrun : s.run = .running)
    (hn : 0 < n.toInt) :
    execFrameWith p n ss s = .next t ↔ ∃ u qs, (s.latched p).samples p ss = .ok (u, qs) ∧
      t = u.withOut (s.out ++ [.level (p.encF32 (level p ss n.toInt)), .played ⟨n, qs⟩]) := by
  have hcount : ¬ i32 n ≤ 0 := not_le.2 hn
  have hout := State.latched_out p s
  generalize hlevel : Output.level (p.encF32 (level p ss n.toInt)) = o
  have hexec : execFrameWith p n ss s =
      match ((s.latched p).emit o).samples p ss with
      | .error f => .fault f
      | .ok (u, qs) => .next (u.emit (.played ⟨n, qs⟩)) := by
    rw [execFrameWith, if_pos hrun, ← hlevel]
    exact if_neg hcount
  have hend {u : State F} (qs : List Half) (hu : u.out = s.out ++ [o]) :
      u.emit (.played ⟨n, qs⟩) = u.withOut (s.out ++ [o, .played ⟨n, qs⟩]) := by
    rw [State.emit_eq_withOut, hu, List.append_assoc]
    rfl
  constructor
  · intro h
    rw [hexec] at h
    split at h
    · cases h
    · next u qs hsamples =>
      cases h
      refine ⟨u.withOut s.out, qs, ?_, hend qs ?_⟩
      · rw [← hout]
        exact State.samples_withOut hsamples (s.latched p).out
      · rw [State.samples_out hsamples, State.emit_out, hout]
  · rintro ⟨u, qs, hsamples, rfl⟩
    have hemitted := State.samples_withOut hsamples (s.out ++ [o])
    rw [← hout, ← State.emit_eq_withOut] at hemitted
    rw [hexec, hemitted, hout]
    exact congrArg Host.Outcome.next (hend qs (u := u.withOut _) rfl)

end

theorem exec_frame_samples {n : Word} {ss : List Half} {s t : State} (hrun : s.run = .running) (hn : 0 < n.toInt)
    (h : exec (.frame n ss) s = .next t) : ∃ u qs l, (s.latched theParams).samples theParams ss = .ok (u, qs) ∧
      t = u.withOut (s.out ++ [.level l, .played ⟨n, qs⟩]) := by
  obtain ⟨u, qs, hsamples, ht⟩ := (execFrameWith_next_iff hrun hn).1 ((exec_eq _ s).symm.trans h)
  exact ⟨u, qs, _, hsamples, ht⟩

/-- Settles O49: the samples of the two parts are run in turn either way; the second latch finds nothing pending, and
the events between the parts play no part in the samples. -/
theorem framesMayBeCutAnywhere : Obligations.FramesMayBeCutAnywhere := by
  intro s s1 s2 t n n1 n2 xs ys hrun hn hn1 hn2 hwhole hfirst hsecond
  obtain ⟨u, qs, l, hsamples, rfl⟩ := exec_frame_samples hrun hn hwhole
  obtain ⟨m, q1, q2, hxs, hys, rfl⟩ := State.samples_append_ok.1 hsamples
  obtain ⟨m', q1', l1, hxs', hs1⟩ := exec_frame_samples hrun hn1 hfirst
  obtain ⟨rfl, rfl⟩ := Prod.mk.inj (Except.ok.inj (hxs.symm.trans hxs'))
  obtain ⟨hrun', -, hpend⟩ := s.latched_control theParams
  have hsame := sameControl_samples hxs
  have hrun1 : s1.run = .running := by
    rw [hs1]
    exact hsame.run.trans (hrun'.trans hrun)
  have hlatched1 : s1.latched theParams = s1 := by
    rw [hs1]
    exact State.latched_of_not_pend (hsame.pend.trans hpend)
  obtain ⟨u', q2', l2, hys', rfl⟩ := exec_frame_samples hrun1 hn2 hsecond
  rw [hlatched1, hs1, State.samples_withOut hys] at hys'
  obtain ⟨rfl, rfl⟩ := Prod.mk.inj (Except.ok.inj hys')
  refine ⟨q1, q2, l, l1, l2, rfl, ?_, rfl⟩
  rw [State.withOut_out, hs1, State.withOut_out, List.append_assoc]
  rfl

end Sys2Proof.Machine
end

section
/-! PROOFS. The conversions between PCM and NUM (spec/48_stream_processor.md R242 S0 and S9, R243): the quotient of a
sample by 32768 is exact, so the output conversion gives the sample back. -/

namespace Sys2Proof.Machine

open Sys2Proof Sys2Proof.Claims NUM

theorem i16_bounds (h : Half) : -32768 ≤ i16 h ∧ i16 h < 32768 := by
  have := BitVec.two_mul_toInt_lt (x := h)
  have := BitVec.le_two_mul_toInt (x := h)
  unfold i16
  omega

/-- No sample saturates. -/
theorem sat16_i16 (h : Half) : sat16 (i16 h) = i16 h := by
  obtain ⟨hlo, hhi⟩ := i16_bounds h
  rw [sat16, clampInt, if_neg (by omega), if_neg (by omega)]

/-- R243 over every lawful carrier. -/
theorem pcmOut_pcmIn {F : Type} {p : Params F} (hp : p.Lawful) (hscale : p.pcmScale = p.ofInt 32768) (h : Half) :
    pcmOut p (pcmIn p h) = h := by
  obtain ⟨hlo, hhi⟩ := i16_bounds h
  have hnan : p.isNaN (pcmIn p h) = false := by
    rw [pcmIn, hscale]
    exact hp.not_nan_of_finite _ (hp.quotient_finite _ hlo hhi.le)
  have hround : p.roundToInt (p.mul (pcmIn p h) p.pcmScale) = i16 h := by
    rw [pcmIn, hscale, hp.product_exact _ hlo hhi.le, hp.round_ofInt _ hlo hhi.le]
  rw [pcmOut, hnan, if_neg Bool.false_ne_true, hround, sat16_i16]
  exact BitVec.ofInt_toInt

theorem pcmScale_eq_ofInt : theParams.pcmScale = ofInt 32768 := rfl

/-- Settles O53: the product with 32768 is the integer of the sample; out of range the integer saturates. -/
theorem outputConversionIsFaithful : Obligations.OutputConversionIsFaithful := by
  refine ⟨pcmOut_pcmIn binary32_lawful pcmScale_eq_ofInt, by decide +kernel, by decide +kernel, fun v hv => if_pos hv,
    fun F p hp hscale => ⟨?_, pcmOut_pcmIn hp hscale⟩⟩
  have hzero : p.ofInt (i16 0#16) = p.zero := hp.ofInt_zero
  rw [pcmIn, hzero, hscale, hp.zero_div 32768 (by decide)]

/-! ## The input conversion over binary32 -/

theorem pcmIn_isFraction (h : Half) : IsFraction (pcmIn theParams h) (i16 h) 32768 := by
  obtain ⟨hlo, hhi⟩ := i16_bounds h
  exact isFraction_quotient (by omega)

/-- The zero sample is +0. -/
theorem pcmIn_ne_negZero (h : Half) : (pcmIn theParams h).bits ≠ 0x80000000#32 := by
  intro hbits
  have hx : pcmIn theParams h = ⟨0x80000000#32⟩ := congrArg NUM.mk hbits
  obtain ⟨-, hsign, hvalue⟩ := pcmIn_isFraction h
  rw [hx] at hsign hvalue
  have hneg : i16 h < 0 := of_decide_eq_true (hsign.symm.trans (by decide))
  have hzero : (⟨0x80000000#32⟩ : NUM).value = 0 := value_of_isZero (by decide)
  rw [hzero, eq_comm, div_eq_zero_iff] at hvalue
  have hi : i16 h = 0 := by exact_mod_cast hvalue.resolve_right (by norm_num)
  omega

theorem clamp_clip_eq_clampTo (v : NUM) :
    theParams.clamp v theParams.clipLo theParams.clipHi = clampTo (NUM.ofInt (-1)) NUM.one v := rfl

/-- S9 of R242: a converted sample lies inside the clip range. -/
theorem clamp_pcmIn (h : Half) : theParams.clamp (pcmIn theParams h) theParams.clipLo theParams.clipHi =
    pcmIn theParams h := by
  obtain ⟨hlo, hhi⟩ := i16_bounds h
  obtain ⟨hfin, -, hvalue⟩ := pcmIn_isFraction h
  have hminus := isFraction_ofInt (i := -1) (by decide)
  have hlo' : (-32768 : ℚ) ≤ i16 h := by exact_mod_cast hlo
  have hhi' : (i16 h : ℚ) < 32768 := by exact_mod_cast hhi
  have hbelow : (pcmIn theParams h).lt (ofInt (-1)) = false := by
    rw [lt_eq_decide hfin hminus.finite, hvalue, hminus.value, decide_eq_false_iff_not, not_lt]
    push_cast
    linarith
  have habove : NUM.one.lt (pcmIn theParams h) = false := by
    rw [lt_eq_decide isFraction_one.finite hfin, hvalue, value_one, decide_eq_false_iff_not, not_lt]
    linarith
  rw [clamp_clip_eq_clampTo, clampTo, hbelow, habove, if_neg Bool.false_ne_true, if_neg Bool.false_ne_true]

end Sys2Proof.Machine
end

section
/-! PROOFS. The stream with the neutral parameters (spec/48_stream_processor.md R245): each stage of a sample answers
the value it is given and leaves the stream neutral. -/

namespace Sys2Proof.Machine

open Sys2Proof Sys2Proof.Claims NUM

/-! ## The filters in bypass -/

theorem State.setBq_get (s : State) (u : Fin 9) : s.setBq u (s.bq.get u) = s := by
  have hbq : s.bq.set u (s.bq.get u) = s.bq := by
    refine vector_ext_get fun j => ?_
    rw [get_vector_set]
    split
    case isTrue heq => rw [heq]
    case isFalse => rfl
  rw [State.setBq, hbq]

/-- R129: filters in bypass answer a finite value other than −0 and keep their records. -/
theorem State.filters_of_bypass {s : State} {us : List (Fin 9)} {x : NUM} (hus : ∀ u ∈ us, s.bq.get u = bypassRecord)
    (hx : x.isFinite = true) (hne : x.bits ≠ 0x80000000#32) : s.filters Num.binary32 us x = (s, x) := by
  induction us with
  | nil => rfl
  | cons u us ih =>
    obtain ⟨hu, hus⟩ := List.forall_mem_cons.1 hus
    have hfilter : s.filter Num.binary32 u x = (s, x) := by
      rw [State.filter, hu, bypassRecord_process hx hne, ← hu, State.setBq_get]
    rw [State.filters, hfilter]
    exact ih hus

/-! ## The other units -/

/-- R164: the ratio 1 is inside the dead-band. -/
theorem outsideDeadband_one :
    outsideDeadband theParams (theParams.clamp NUM.one theParams.pitchMin theParams.pitchMax) = false := by
  decide +kernel

/-- R210: the Normal preset switches every stage of the modulator off. -/
theorem VoiceModulator.process_normal (vm : VoiceModulator) (x : NUM) :
    vm.process theParams (PresetRow.normal Num.binary32) x = (vm, x) := by
  have hoff : stageOn Num.binary32 NUM.zero = false := by decide
  simp [VoiceModulator.process, VoiceModulator.tremolo, VoiceModulator.ring, VoiceModulator.warp, distortion,
    PresetRow.normal, hoff]

/-- A zero of either sign added to a finite datum other than −0 changes nothing. -/
theorem add_isZero_of_ne {x z : NUM} (hx : x.isFinite = true) (hne : x.bits ≠ 0x80000000#32) (hz : z.isZero = true) :
    x.add z = x := by
  rcases (add_of_isZero hx hz).1 with h | ⟨h0, -⟩
  · exact h
  · have hzero (s : Bool) : NUM.zero.add (signedZero s) = NUM.zero := by cases s <;> decide
    have hx0 : x = NUM.zero := by
      have hsum := add_zero_of_ne hx hne
      rw [eq_signedZero h0] at hsum ⊢
      cases hs : x.sign with
      | false => decide
      | true =>
        rw [hs] at hsum
        exact absurd hsum (by decide)
    rw [hx0, eq_signedZero hz, hzero]

/-- R191: at the mix 0 the echo line answers its input bit for bit. -/
theorem Echo.mixed_of_zero {ec : Echo} {x : NUM} (hmix : ec.mix = NUM.zero) (hx : x.isFinite = true)
    (hne : x.bits ≠ 0x80000000#32) (hdelayed : (ec.delayed Num.binary32).isFinite = true) :
    ec.mixed Num.binary32 x = x := by
  have hwet : ((ec.delayed Num.binary32).mul NUM.zero).isZero = true :=
    isZero_mul_of_isZero hdelayed isFraction_zero.finite (.inr isZero_zero)
  simp only [Echo.mixed, hmix, binary32_add, binary32_mul, binary32_sub, binary32_one, one_sub_isZero isZero_zero,
    (one_mul_of_finite hx).2]
  exact add_isZero_of_ne hx hne hwet

/-- At the feedback 0 every stored word stays finite. -/
theorem Echo.stepped_finite {ec : Echo} {x : NUM} (hwf : ec.buf.wf NUM.zero ec.len = true) (hfb : ec.fb = NUM.zero)
    (hx : x.isFinite = true) (hne : x.bits ≠ 0x80000000#32) (hbuf : ∀ i, (ec.buf.read NUM.zero i).isFinite = true)
    (i : Nat) : ((ec.stepped Num.binary32 x).buf.read NUM.zero i).isFinite = true := by
  by_cases hi : i = ec.cur
  · have hback : ((ec.delayed Num.binary32).mul NUM.zero).isZero = true :=
      isZero_mul_of_isZero (hbuf _) isFraction_zero.finite (.inr isZero_zero)
    have hstored := Echo.stepped_read_cur Num.binary32 hwf x
    rw [hfb] at hstored
    rw [hi]
    refine (congrArg NUM.isFinite (hstored.trans ?_)).trans hx
    exact add_isZero_of_ne hx hne hback
  · exact (congrArg NUM.isFinite (Echo.stepped_read_ne Num.binary32 ec x hi)).trans (hbuf i)

/-! ## One sample and a frame -/

theorem State.Inv.live {s : State} (h : s.Inv) (hrun : s.run = .running) :
    Live s ∧ 1 ≤ s.sr ∧ s.act.inDomain = true := by
  obtain ⟨-, -, hgood, hrunning⟩ := s.inv_iff.1 h
  obtain ⟨hready, hsr, hact⟩ := hrunning hrun
  exact ⟨⟨hgood, hready⟩, hsr, hact⟩

/-- A sample of a good running stream leaves it good. -/
theorem State.Inv.sample {s t : State} {x q : Half} (h : s.Inv) (hrun : s.run = .running)
    (hs : s.sample theParams x = .ok (t, q)) : t.Inv := by
  obtain ⟨-, hn, -, -⟩ := s.inv_iff.1 h
  obtain ⟨hlive, hsr, hact⟩ := h.live hrun
  have hsame := sameControl_sample hs
  exact State.inv_of_live (hsame.run.trans hrun) (hsame.snap ▸ hn) (hlive.sample hs) (hsame.sr ▸ hsr)
    (hsame.act ▸ hact)

/-- R245: a sample comes out as it went in. -/
theorem neutral_sample {s : State} (h : NeutralStream s) (x : Half) :
    ∃ t, s.sample theParams x = .ok (t, x) ∧ NeutralStream t := by
  obtain ⟨hinv, hrun, hpend, hact, hfilters, hpreset, ⟨hmix, hfb⟩, hfinite⟩ := h
  obtain ⟨hlive, -, -⟩ := hinv.live hrun
  obtain ⟨hfin, -, -⟩ := pcmIn_isFraction x
  have hne := pcmIn_ne_negZero x
  generalize hv : pcmIn theParams x = v at hfin hne
  have hbypass {t : State} {us : List (Fin 9)} (ht : t.bq = s.bq) (hus : ∀ u ∈ us, 5 ≤ u.val) :
      t.filters Num.binary32 us v = (t, v) :=
    State.filters_of_bypass (fun u hu => ht ▸ hfilters u (hus u hu)) hfin hne
  obtain ⟨ps, hps⟩ : ∃ ps, s.ps.process theParams v s.act.pitchRatio = .ok (ps, v) := by
    rw [hact]
    exact ⟨_, PitchShifter.process_inside (hlive.good.ps.write_lt hlive.ready.ps) outsideDeadband_one⟩
  have hmodulate : ({ s with ps := ps } : State).modulate theParams v = ({ s with ps := ps }, v) := by
    have hprocess : s.vm.process theParams s.pc.row v = (s.vm, v) := hpreset ▸ s.vm.process_normal v
    simp only [State.modulate, hprocess]
  have hreverb : reverbProcess theParams s.cb v s.act.wet = .ok (s.cb, v) := by
    rw [hact]
    exact reverbProcess_dry (by decide) v
  have hecho : s.ec.process Num.binary32 v = .ok (s.ec.stepped Num.binary32 v, v) := by
    rw [Echo.process_eq_stepped (hlive.good.ec.cursor_lt hlive.ready.ec),
      Echo.mixed_of_zero hmix hfin hne (hfinite _)]
  have hout : pcmOut theParams (theParams.clamp (theParams.mul v s.act.volume) theParams.clipLo theParams.clipHi) =
      x := by
    have hvolume : theParams.mul v s.act.volume = v := by
      rw [hact]
      exact (one_mul_of_finite hfin).2
    rw [hvolume, ← hv, clamp_pcmIn, pcmOut_pcmIn binary32_lawful pcmScale_eq_ofInt]
  have heq : s.eqStage theParams (pcmIn theParams x) = (s, v) := by
    rw [hv]
    exact if_neg (by simp [hact])
  have hsample := State.sample_of_stages (p := theParams) (x := x) (e := (s, v)) (f := (s, v))
    (m := ({ s with ps := ps }, v)) (v := ({ s with ps := ps }, v)) heq (hbypass rfl (by decide))
    (State.shift_ok.2 ⟨ps, hps, rfl⟩) hmodulate (hbypass rfl (by decide))
    (State.reverb_ok.2 ⟨s.cb, hreverb, rfl⟩) (State.echo_ok.2 ⟨_, hecho, rfl⟩)
  rw [hout] at hsample
  refine ⟨_, hsample, hinv.sample hrun hsample, hrun, hpend, hact, hfilters, hpreset, ⟨hmix, hfb⟩, ?_⟩
  exact Echo.stepped_finite hlive.good.ec.memory hfb hfin hne hfinite

theorem neutral_samples {xs : List Half} : ∀ {s : State}, NeutralStream s →
    ∃ t, s.samples theParams xs = .ok (t, xs) ∧ NeutralStream t := by
  induction xs with
  | nil => exact fun h => ⟨_, rfl, h⟩
  | cons x xs ih =>
    intro s h
    obtain ⟨u, hx, hu⟩ := neutral_sample h x
    obtain ⟨t, hxs, ht⟩ := ih hu
    exact ⟨t, State.samples_cons_ok.2 ⟨u, x, xs, hx, hxs, rfl⟩, ht⟩

theorem neutral_withOut {s : State} (h : NeutralStream s) (l : List Output) : NeutralStream (s.withOut l) :=
  ⟨h.inv, h.running, h.latched, h.act, h.filters, h.preset, h.echo, h.finite⟩

/-- Settles O50: nothing is latched, and each sample passes and leaves the stream neutral. -/
theorem neutralStreamIsPassthrough : Obligations.NeutralStreamIsPassthrough := by
  intro s n ss h hn _
  obtain ⟨t, hsamples, ht⟩ := neutral_samples h (xs := ss)
  rw [← State.latched_of_not_pend (p := theParams) h.latched] at hsamples
  have hexec := (execFrameWith_next_iff h.running hn).2 ⟨t, ss, hsamples, rfl⟩
  exact ⟨_, (exec_eq (.frame n ss) s).trans hexec, neutral_withOut ht _, rfl⟩

end Sys2Proof.Machine
end

section
/-! PROOFS. What DERIVE makes of the snapshot (spec/48_stream_processor.md R240), with the constants of the spec written
out: the bank, the active parameters and the echo line. -/

namespace Sys2Proof.Machine

open Sys2Proof Sys2Proof.Claims NUM

/-! ## The bank -/

/-- A property of the bypass record and of every design holds of each section that DERIVE configures (R147). -/
theorem forall_derivedBank {P : Biquad → Prop} {p : Params} {sr : Int} (bypassed : P (Biquad.bypassed p.toNum))
    (peaking : ∀ f g q, P (Biquad.peaking p f g q sr)) (lowShelf : ∀ f g, P (Biquad.lowShelf p f g sr))
    (highShelf : ∀ f g, P (Biquad.highShelf p f g sr)) (n : Snapshot) (row : PresetRow) :
    ∀ u : Fin 9, P ((derivedBank p n row sr).get u) := by
  have hchoice {c : Prop} [Decidable c] {b : Biquad} (hb : P b) : P (if c then b else Biquad.bypassed p.toNum) := by
    split
    · exact hb
    · exact bypassed
  have hslot (k : Fin 5) : P (eqSlotBand p n sr k) := hchoice (hchoice (peaking ..))
  intro u
  match u with
  | 0 => exact hslot 0
  | 1 => exact hslot 1
  | 2 => exact hslot 2
  | 3 => exact hslot 3
  | 4 => exact hslot 4
  | 5 => exact hchoice (lowShelf ..)
  | 6 => exact hchoice (highShelf ..)
  | 7 => exact hchoice (lowShelf ..)
  | 8 => exact hchoice (highShelf ..)

/-- The memory of a section is cleared (INV-BQ). -/
def Biquad.AtRest (b : Biquad) : Prop := b.z1 = NUM.zero ∧ b.z2 = NUM.zero

theorem derivedBank_atRest (n : Snapshot) (row : PresetRow) (sr : Int) (u : Fin 9) :
    ((derivedBank theParams n row sr).get u).AtRest := by
  refine forall_derivedBank (P := Biquad.AtRest) ⟨rfl, rfl⟩ (fun f g q => ?_) (fun f g => ?_) (fun f g => ?_) n row u
  · unfold Biquad.peaking
    dsimp only
    split <;> exact ⟨rfl, rfl⟩
  · unfold Biquad.lowShelf
    dsimp only
    split <;> exact ⟨rfl, rfl⟩
  · unfold Biquad.highShelf
    dsimp only
    split <;> exact ⟨rfl, rfl⟩

/-! ## The equaliser -/

/-- R141: the band is off, its gain below the gate or its frequency not positive. -/
def EqSlot.Off (e : EqSlot) : Prop := e.gainDb.abs.lt ⟨0x3C23D70A#32⟩ = true ∨ e.freq ≤ 0

theorem eqActive_eq_true (e : EqSlot) : eqActive theParams e = true ↔ ¬ e.Off := by
  simp [eqActive, EqSlot.Off]

theorem eqBand_of_off {e : EqSlot} (h : e.Off) (sr : Int) : eqBand theParams e sr = bypassRecord :=
  if_neg fun hactive => (eqActive_eq_true e).1 hactive h

theorem eqBand_of_not_off {e : EqSlot} (h : ¬ e.Off) (sr : Int) :
    eqBand theParams e sr = Biquad.peaking theParams (ofInt e.freq) e.gainDb NUM.one sr :=
  if_pos ((eqActive_eq_true e).2 h)

/-- EQ_BANDS is 5: every slot of the snapshot is a band. -/
theorem derivedBank_eq (n : Snapshot) (row : PresetRow) (sr : Int) (k : Fin 5) :
    (derivedBank theParams n row sr).get (k.castLE (by omega)) = eqBand theParams (n.eq.get k) sr := by
  have hslot : eqSlotBand theParams n sr k = eqBand theParams (n.eq.get k) sr := if_pos k.isLt
  rw [← hslot]
  match k with
  | 0 | 1 | 2 | 3 | 4 => rfl

theorem derivedEqOn_iff (n : Snapshot) : derivedEqOn theParams n = true ↔ ∃ k : Fin 5, ¬ (n.eq.get k).Off := by
  have hall : n.eq.toList.take theParams.eqBands = n.eq.toList :=
    List.take_of_length_le (by rw [Vector.length_toList, theParams_eqBands])
  rw [derivedEqOn, hall, List.any_eq_true]
  constructor
  · rintro ⟨e, he, hactive⟩
    obtain ⟨k, hk, rfl⟩ := Vector.mem_iff_getElem.1 (Vector.mem_toList_iff.1 he)
    exact ⟨⟨k, hk⟩, (eqActive_eq_true _).1 hactive⟩
  · rintro ⟨k, hk⟩
    exact ⟨_, Vector.mem_toList_iff.2 (Vector.getElem_mem k.isLt), (eqActive_eq_true _).2 hk⟩

/-! ## The shelves -/

theorem bypassed_theParams : Biquad.bypassed theParams.toNum = bypassRecord := rfl

theorem formantLow_theParams (shift sr : Int) : formantLow theParams shift sr =
    if 0 < shift then Biquad.lowShelf theParams ⟨0x437A0000#32⟩ ((ofInt shift).mul ⟨0x3F19999A#32⟩) sr
    else bypassRecord := by
  rw [formantLow, theParams_formantLoHz, theParams_formantDbPerStep]
  rfl

theorem formantHigh_theParams (shift sr : Int) : formantHigh theParams shift sr =
    if shift < 0 then Biquad.highShelf theParams ⟨0x451C4000#32⟩ ((ofInt (-shift)).mul ⟨0x3F19999A#32⟩).neg sr
    else bypassRecord := by
  rw [formantHigh, theParams_formantHiHz, theParams_formantDbPerStep]
  split
  case isTrue h =>
    rw [Int.ofNat_natAbs_of_nonpos h.le]
    rfl
  case isFalse => rfl

/-- R145: a tone shelf is called for. -/
def toneOn (gain : NUM) : Bool := NUM.lt ⟨0x3DCCCCCD#32⟩ gain.abs

theorem toneGate_eq (gain : NUM) : theParams.lt theParams.toneGateDb (theParams.abs gain) = toneOn gain := by
  rw [theParams_toneGateDb]
  rfl

theorem toneLow_theParams (row : PresetRow) (sr : Int) : toneLow theParams row sr =
    if toneOn row.bassGainDb then Biquad.lowShelf theParams ⟨0x43340000#32⟩ row.bassGainDb sr else bypassRecord := by
  rw [toneLow, theParams_toneLoHz, toneGate_eq, bypassed_theParams]

theorem toneHigh_theParams (row : PresetRow) (sr : Int) : toneHigh theParams row sr =
    if toneOn row.trebleGainDb then Biquad.highShelf theParams ⟨0x45480000#32⟩ row.trebleGainDb sr
    else bypassRecord := by
  rw [toneHigh, theParams_toneHiHz, toneGate_eq, bypassed_theParams]

/-! ## The wetness and the echo line -/

theorem derivedWet_theParams (n : Snapshot) (row : PresetRow) : derivedWet theParams n row =
    clampTo NUM.zero NUM.one
      ((n.reverbWet.mul (if n.reverbEnabled then NUM.one else NUM.zero)).add row.extraReverbWet) := by
  dsimp only [derivedWet]
  rw [clamp_wet_eq_clampTo, theParams_toNum, binary32_add, binary32_mul, binary32_one, binary32_zero]

theorem effectiveDelay_binary32 (n : Snapshot) (row : PresetRow) (sr : Int) :
    effectiveDelay Num.binary32 n row sr =
      let delayMs := if n.echoEnabled then ofInt n.echoDelayMs else NUM.zero
      (((if delayMs.lt row.extraDelayMs then row.extraDelayMs else delayMs).div (ofInt 1000)).mul
        (ofInt sr)).round := by
  dsimp only [effectiveDelay, Num.max]
  rw [binary32_roundToInt, binary32_mul, binary32_div, binary32_lt, binary32_ofInt, binary32_zero]

/-- R187: EC.CFG keeps the contents of the line, or the line grows and is cleared. -/
theorem Echo.configured_contents (ec : Echo) (delay : Int) (mix fb : NUM) :
    let ec' := ec.configured theParams delay mix fb
    ec'.len = ec.len ∧ ec'.cur = ec.cur ∧ ec'.buf = ec.buf ∨ ec.len < ec'.len ∧ ec'.cur = 0 ∧ ec'.buf = [] := by
  dsimp only
  rw [Echo.configured_theParams]
  split
  case isTrue hgrow =>
    refine .inr ⟨?_, rfl, rfl⟩
    dsimp only
    omega
  case isFalse => exact .inl ⟨rfl, rfl, rfl⟩

/-- Settles O47: each derived field is its rule with the constants written out. -/
theorem deriveConfiguresFromTheSnapshot : Obligations.DeriveConfiguresFromTheSnapshot := by
  intro s t row off shift shelfOn delayMs
  refine ⟨fun k => ⟨fun h => ?_, fun h => ?_⟩, derivedEqOn_iff s.snap, formantLow_theParams ..,
    formantHigh_theParams .., toneLow_theParams .., toneHigh_theParams .., rfl, rfl, derivedWet_theParams .., ?_, rfl,
    rfl, rfl⟩
  · exact (derivedBank_eq ..).trans (eqBand_of_off h _)
  · exact (derivedBank_eq ..).trans (eqBand_of_not_off h _)
  · have hdelay := effectiveDelay_binary32 s.snap row s.sr
    rw [State.derive_ec, derivedEcho, theParams_toNum, hdelay]
    rfl

end Sys2Proof.Machine
end

section
/-! PROOFS. The control commands (spec/48_stream_processor.md R231 to R235): every field that START leaves, how START
fails, what STOP keeps, and the clamped snapshot that APPLY publishes. -/

namespace Sys2Proof.Machine

open Sys2Proof Sys2Proof.Claims NUM

/-! ## START and STOP -/

theorem exec_start {s : State} {sr : Word} (hrun : s.run = .stopped) (hsr : 0 < sr.toInt) :
    exec (.start true sr) s = .next ((s.started theParams sr.toInt).respond .ok 1#32) := by
  have hok : (true && decide (0 < i32 sr)) = true := decide_eq_true hsr
  exact (State.guarded_pass (by simp [stoppedCheck, hrun])).trans (if_pos hok)

/-- Settles O16: each unit is the one that its own operation creates, and the rest is DERIVE's. -/
theorem startCreatesEveryUnit : Obligations.StartCreatesEveryUnit := by
  intro s sr hrun hsr n row
  have hsize : 0 < 2 * n := by omega
  have hgap : 2 * (2 * n) / 5 = 4 * n / 5 := by rw [← Nat.mul_assoc]
  have hanchor := anchor_eq_ofInt hsize 0 (max 64 (2 * (2 * n) / 5))
  have hbank (u : Fin 9) := derivedBank_atRest s.snap row sr.toInt u
  refine ⟨_, exec_start hrun hsr, rfl, rfl, rfl, rfl, rfl, congrArg (max 64) hgap, rfl, hanchor, fun _ => rfl, rfl,
    combsCreated_theParams _, rfl, rfl, rfl, rfl, fun u => ⟨(hbank u).1, (hbank u).2, derivedBank_init ..⟩, rfl, rfl,
    rfl, rfl, rfl, rfl, rfl⟩

/-- Settles O17: no check fails, and the condition of success does. -/
theorem startFailsWithoutEndpointOrRate : Obligations.StartFailsWithoutEndpointOrRate := by
  intro s ok sr hrun hbad
  have hnot : ¬ (ok && decide (0 < i32 sr)) = true := by
    rw [Bool.and_eq_true, decide_eq_true_eq, i32]
    rintro ⟨hok, hpos⟩
    rcases hbad with hbad | hbad
    · exact absurd (hok.symm.trans hbad) nofun
    · omega
  exact (State.guarded_pass (by simp [stoppedCheck, hrun])).trans (if_neg hnot)

/-- Settles O18: the destroyed state is the reset state with SNAP, PEND and what the ports hold. -/
theorem stopKeepsOnlyTheSnapshot : Obligations.StopKeepsOnlyTheSnapshot := fun _ => rfl

/-! ## APPLY -/

theorem clampInt_eq_max_min {v lo hi : Int} (h : lo ≤ hi) : clampInt v lo hi = max lo (min hi v) := by
  unfold clampInt
  split
  · omega
  · split <;> omega

/-- R93: the code of the preset that a code selects. -/
theorem Preset.code_ofCode (c : Int) : ((Preset.ofCode c).code.val : Int) = if 0 ≤ c ∧ c ≤ 5 then c else 0 := by
  unfold Preset.ofCode
  split_ifs <;> simp only [Preset.code] <;> omega

/-- Settles O19: each field of the snapshot is the operand clamped into its domain. -/
theorem applyPublishesTheClampedSnapshot : Obligations.ApplyPublishesTheClampedSnapshot := by
  intro s a ha
  refine ⟨clamped theParams a, exec_apply_of_wf ha s, fun k => ?_, clamped_pitchRatio a, ?_, rfl, rfl, rfl, rfl,
    clamp_feedback_eq_clampTo a.echoFeedback, clamped_volume a, Preset.code_ofCode _⟩
  · exact Vector.get_map ..
  · exact clampInt_eq_max_min (by decide)

/-! ## START from the neutral snapshot -/

theorem derivedBank_neutral (sr : Int) : ∀ u : Fin 9, 5 ≤ u.val →
    (derivedBank theParams (Snapshot.neutral Num.binary32) (PresetRow.normal Num.binary32) sr).get u =
      bypassRecord := by
  intro u hu
  have htone : ¬ toneOn NUM.zero = true := by decide
  match u with
  | 5 =>
    change formantLow theParams 0 sr = bypassRecord
    rw [formantLow_theParams, if_neg (by decide)]
  | 6 =>
    change formantHigh theParams 0 sr = bypassRecord
    rw [formantHigh_theParams, if_neg (by decide)]
  | 7 =>
    change toneLow theParams (PresetRow.normal Num.binary32) sr = bypassRecord
    rw [toneLow_theParams]
    exact if_neg htone
  | 8 =>
    change toneHigh theParams (PresetRow.normal Num.binary32) sr = bypassRecord
    rw [toneHigh_theParams]
    exact if_neg htone

theorem derivedAct_neutral :
    derivedEqOn theParams (Snapshot.neutral Num.binary32) = false ∧
      derivedWet theParams (Snapshot.neutral Num.binary32) (PresetRow.normal Num.binary32) = NUM.zero := by
  decide +kernel

/-- The neutral snapshot and the Normal preset add no echo (R189). -/
theorem derivedEcho_neutral (ec : Echo) (sr : Int) :
    let e := derivedEcho theParams ec (Snapshot.neutral Num.binary32) (PresetRow.normal Num.binary32) sr
    e.mix = NUM.zero ∧ e.fb = NUM.zero := by
  have hmix : clampTo NUM.zero NUM.one
      (effectiveMix theParams (Snapshot.neutral Num.binary32) (PresetRow.normal Num.binary32)) = NUM.zero := by
    decide +kernel
  have hfb : clampTo NUM.zero ⟨0x3F733333#32⟩
      (effectiveFeedback Num.binary32 (Snapshot.neutral Num.binary32) (PresetRow.normal Num.binary32)) = NUM.zero := by
    decide +kernel
  exact ⟨(Echo.configured_mix ..).trans hmix, (Echo.configured_fb ..).trans hfb⟩

/-- Settles O51: the neutral snapshot derives the neutral parameters, and the fresh echo line is silent. -/
theorem startFromNeutralIsNeutral : Obligations.StartFromNeutralIsNeutral := by
  intro s t sr hinv hrun hsnap hsr hexec
  have ht := (Host.Outcome.next.inj ((exec_start hrun hsr).symm.trans hexec)).symm
  have hrow : presetRow theParams s.snap.voicePreset = PresetRow.normal Num.binary32 := by
    rw [hsnap]
    rfl
  have hact : t.act = ⟨s.snap.pitchRatio, s.snap.volume, derivedEqOn theParams s.snap,
      derivedWet theParams s.snap (presetRow theParams s.snap.voicePreset)⟩ := ht ▸ rfl
  have hbq : t.bq = derivedBank theParams s.snap (presetRow theParams s.snap.voicePreset) sr.toInt := ht ▸ rfl
  have hec : t.ec = derivedEcho theParams (Echo.created Num.binary32 (echoInitLen theParams sr.toInt)) s.snap
      (presetRow theParams s.snap.voicePreset) sr.toInt := ht ▸ rfl
  have hpc : t.pc.row = presetRow theParams s.snap.voicePreset := ht ▸ rfl
  have hbuf : t.ec.buf = [] := by
    rw [hec]
    rcases Echo.configured_contents (Echo.created Num.binary32 (echoInitLen theParams sr.toInt)) _ _ _ with
      ⟨-, -, hkept⟩ | ⟨-, -, hcleared⟩
    · exact hkept
    · exact hcleared
  obtain ⟨heqOn, hwet⟩ := derivedAct_neutral
  rw [hrow, hsnap] at hact hbq hec
  refine ⟨exec_inv hinv hexec, ht ▸ rfl, ht ▸ rfl, ?_, fun u hu => ?_, hpc.trans hrow, ?_, fun i => ?_⟩
  · rw [hact, heqOn, hwet]
    rfl
  · rw [hbq]
    exact derivedBank_neutral _ u hu
  · rw [hec]
    exact derivedEcho_neutral ..
  · rw [hbuf, Memory.read_nil]
    exact isFraction_zero.finite

end Sys2Proof.Machine
end

section
/-! PROOFS. One sample through the stages (spec/48_stream_processor.md R242): a filter that is met once answers from the
record it had before the sample, so the stages of a sample are functions of the state before it. -/

namespace Sys2Proof.Machine

open Sys2Proof Sys2Proof.Claims NUM

/-! ## Filters met one after the other (R125) -/

/-- The record in which filter `u` is left by its sample `x`. -/
def State.met (s : State) (u : Fin 9) (x : NUM) : Biquad := ((s.bq.get u).process Num.binary32 x).1

theorem State.met_congr {s t : State} {u : Fin 9} (h : s.bq.get u = t.bq.get u) (x : NUM) : s.met u x = t.met u x := by
  rw [State.met, State.met, h]

theorem chain_nil (bq : Vector Biquad 9) (v : NUM) : chain bq [] v = v := List.foldl_nil

theorem chain_cons (bq : Vector Biquad 9) (u : Fin 9) (us : List (Fin 9)) (v : NUM) :
    chain bq (u :: us) v = chain bq us ((bq.get u).process Num.binary32 v).2 := List.foldl_cons ..

theorem chain_congr {bq bq' : Vector Biquad 9} {us : List (Fin 9)} (h : ∀ u ∈ us, bq.get u = bq'.get u) (v : NUM) :
    chain bq us v = chain bq' us v := by
  induction us generalizing v with
  | nil => rw [chain_nil, chain_nil]
  | cons u us ih =>
    obtain ⟨hu, hus⟩ := List.forall_mem_cons.1 h
    rw [chain_cons, chain_cons, hu, ih hus]

theorem State.filters_append (N : Num NUM) (us vs : List (Fin 9)) (s : State) (v : NUM) :
    s.filters N (us ++ vs) v = (s.filters N us v).1.filters N vs (s.filters N us v).2 := by
  induction us generalizing s v with
  | nil => rfl
  | cons u us ih => exact ih (s.filter N u v).1 (s.filter N u v).2

theorem State.filters_get_of_not_mem {us : List (Fin 9)} {u : Fin 9} (hu : u ∉ us) (s : State) (v : NUM) :
    (s.filters Num.binary32 us v).1.bq.get u = s.bq.get u := by
  induction us generalizing s v with
  | nil => rfl
  | cons w us ih =>
    obtain ⟨hne, hu⟩ := not_or.1 (mt List.mem_cons.2 hu)
    refine (ih hu (s.filter Num.binary32 w v).1 _).trans ?_
    rw [State.filter_bq, get_vector_set, if_neg (Ne.symm hne)]

theorem State.filters_snd {us : List (Fin 9)} (hnd : us.Nodup) (s : State) (v : NUM) :
    (s.filters Num.binary32 us v).2 = chain s.bq us v := by
  induction us generalizing s v with
  | nil => rfl
  | cons w us ih =>
    obtain ⟨hw, hnd⟩ := List.nodup_cons.1 hnd
    refine (ih hnd (s.filter Num.binary32 w v).1 _).trans (chain_congr (fun u hu => ?_) _)
    rw [State.filter_bq, get_vector_set, if_neg]
    rintro rfl
    exact hw hu

/-- Each filter of a list without repetition is left as its own sample leaves it. -/
theorem State.filters_get_of_mem {us vs : List (Fin 9)} {u : Fin 9} (hnd : (us ++ u :: vs).Nodup) (s : State)
    (v : NUM) : (s.filters Num.binary32 (us ++ u :: vs) v).1.bq.get u = s.met u (chain s.bq us v) := by
  obtain ⟨hus, huvs, hdisjoint⟩ := List.nodup_append.1 hnd
  obtain ⟨hu, -⟩ := List.nodup_cons.1 huvs
  have hu' : u ∉ us := fun hmem => hdisjoint u hmem u List.mem_cons_self rfl
  rw [State.filters_append]
  refine (State.filters_get_of_not_mem hu (State.filter Num.binary32 _ u _).1 _).trans ?_
  rw [State.filter_bq, get_vector_set, if_pos rfl, State.filters_get_of_not_mem hu', State.filters_snd hus]
  rfl

/-- What the filters `us`, each met once, make of the bank `bq` and the value `v`: a filter outside `us` stays, one
in `us` is left by the value that reaches it. -/
structure State.FiltersTo (s : State) (us : List (Fin 9)) (v : NUM) (bq : Vector Biquad 9) : Prop where
  other : ∀ u, u ∉ us → bq.get u = s.bq.get u
  met : ∀ ws u vs, us = ws ++ u :: vs → bq.get u = s.met u (chain s.bq ws v)

theorem State.filters_eq {us : List (Fin 9)} (hnd : us.Nodup) (s : State) (v : NUM) :
    ∃ bq, s.filters Num.binary32 us v = ({ s with bq := bq }, chain s.bq us v) ∧ s.FiltersTo us v bq := by
  refine ⟨_, Prod.ext (State.filters_frame ..) (State.filters_snd hnd s v), fun u hu => ?_, ?_⟩
  · exact State.filters_get_of_not_mem hu s v
  · rintro ws u vs rfl
    exact State.filters_get_of_mem hnd s v

/-- R142: the equaliser is skipped where no band is active. -/
theorem State.eqStage_eq (s : State) (v : NUM) :
    ∃ bq, s.eqStage theParams v =
        ({ s with bq := bq }, if s.act.eqOn then chain s.bq [0, 1, 2, 3, 4] v else v) ∧
      s.FiltersTo (if s.act.eqOn then [0, 1, 2, 3, 4] else []) v bq := by
  unfold State.eqStage
  split
  · exact State.filters_eq (us := [0, 1, 2, 3, 4]) (by decide) s v
  · exact ⟨s.bq, rfl, fun _ _ => rfl, fun ws u vs h => absurd h.symm (by simp)⟩

/-! ## The values between the stages -/

/-- S1: the value after the equaliser (R142). -/
def State.afterEq (s : State) (x : Half) : NUM :=
  if s.act.eqOn then chain s.bq [0, 1, 2, 3, 4] (pcmIn theParams x) else pcmIn theParams x

/-- S2: the value after the formant shelves (R144). -/
def State.afterFormant (s : State) (x : Half) : NUM := chain s.bq [5, 6] (s.afterEq x)

/-- S4, first half: the modulator after the value `v` from the pitch shifter, and its output (R212). -/
def State.modulated (s : State) (v : NUM) : VoiceModulator × NUM := s.vm.process theParams s.pc.row v

/-- S4: the value after the tone shelves (R146). -/
def State.afterTone (s : State) (v : NUM) : NUM := chain s.bq [7, 8] (s.modulated v).2

/-- The filters after a sample `x` for which the pitch shifter answers `v`. -/
structure State.BankAfter (s : State) (x : Half) (v : NUM) (bq : Vector Biquad 9) : Prop where
  equaliser : ∀ k : Fin 5, bq.get (k.castLE (by omega)) =
    if s.act.eqOn then s.met (k.castLE (by omega)) (chain s.bq ([0, 1, 2, 3, 4].take k) (pcmIn theParams x))
    else s.bq.get (k.castLE (by omega))
  formantLow : bq.get 5 = s.met 5 (s.afterEq x)
  formantHigh : bq.get 6 = s.met 6 (chain s.bq [5] (s.afterEq x))
  toneLow : bq.get 7 = s.met 7 (s.modulated v).2
  toneHigh : bq.get 8 = s.met 8 (chain s.bq [7] (s.modulated v).2)

/-! ## A sample's conversions -/

theorem pcmIn_eq (x : Half) : pcmIn theParams x = (NUM.ofInt x.toInt).div (NUM.ofInt 32768) := by
  rw [pcmIn, pcmScale_eq_ofInt, i16]
  rfl

theorem pcmOut_eq (v : NUM) :
    pcmOut theParams v = if v.isNaN then 0#16
      else BitVec.ofInt 16 (max (-32768) (min 32767 (v.mul (NUM.ofInt 32768)).round)) := by
  rw [pcmOut, pcmScale_eq_ofInt, sat16, clampInt_eq_max_min (by decide)]
  rfl

/-! ## The stages -/

/-- R242: one sample of a live stream, stage by stage, in terms of the state before it. -/
theorem Live.sample_stages {s : State} (h : Live s) (x : Half) :
    ∃ ps v3, s.ps.process theParams (s.afterFormant x) s.act.pitchRatio = .ok (ps, v3) ∧
      ∃ cb v6, reverbProcess theParams s.cb (s.afterTone v3) s.act.wet = .ok (cb, v6) ∧
        ∃ ec v7, s.ec.process Num.binary32 v6 = .ok (ec, v7) ∧
          ∃ bq, s.BankAfter x v3 bq ∧
            s.sample theParams x =
              .ok ({ s with bq := bq, ps := ps, vm := (s.modulated v3).1, cb := cb, ec := ec },
                pcmOut theParams (clampTo (NUM.ofInt (-1)) NUM.one (v7.mul s.act.volume))) := by
  obtain ⟨b1, he, hb1⟩ := s.eqStage_eq (pcmIn theParams x)
  obtain ⟨b2, hf, hb2⟩ :=
    State.filters_eq (us := [5, 6]) (by decide) { s with bq := b1 } (s.afterEq x)
  obtain ⟨ps, v3, hps⟩ :=
    PitchShifter.process_answers (h.good.ps.write_lt h.ready.ps) theParams (s.afterFormant x) s.act.pitchRatio
  obtain ⟨b3, hv, hb3⟩ := State.filters_eq (us := [7, 8]) (by decide)
    { s with bq := b2, ps := ps, vm := (s.modulated v3).1 } (s.modulated v3).2
  obtain ⟨cb, v6, hcb⟩ :=
    reverbProcess_answers (fun k => (h.good.cb k).cursor_lt (h.ready.cb k)) theParams (s.afterTone v3) s.act.wet
  obtain ⟨ec, v7, hec⟩ := Echo.process_answers (h.good.ec.cursor_lt h.ready.ec) Num.binary32 v6
  have hlow : ∀ u : Fin 9, 5 ≤ u.val → b1.get u = s.bq.get u := fun u hu =>
    hb1.other u (by split <;> revert u <;> decide)
  have hformant : chain b1 [5, 6] (s.afterEq x) = s.afterFormant x :=
    chain_congr (by simp [hlow]) _
  have htone : chain b2 [7, 8] (s.modulated v3).2 = s.afterTone v3 :=
    chain_congr (by simp [hlow, hb2.other]) _
  refine ⟨ps, v3, hps, cb, v6, hcb, ec, v7, hec, b3, ?_, ?_⟩
  · have hmid : ∀ u : Fin 9, u.val < 7 → b3.get u = b2.get u := fun u hu => hb3.other u (by revert u; decide)
    have hhigh : ∀ u : Fin 9, 7 ≤ u.val → b2.get u = s.bq.get u := fun u hu =>
      (hb2.other u (by revert u; decide)).trans (hlow u (by omega))
    constructor
    case equaliser =>
      intro k
      have hfirst : b3.get (k.castLE (by omega)) = b1.get (k.castLE (by omega)) :=
        (hmid _ (by simp; omega)).trans (hb2.other _ (by revert k; decide))
      rw [hfirst]
      split
      next hon =>
        refine hb1.met _ _ ([0, 1, 2, 3, 4].drop (k + 1)) ?_
        rw [if_pos hon]
        clear hfirst
        revert k
        decide
      next hoff => exact hb1.other _ (by simp [hoff])
    case formantLow =>
      rw [hmid 5 (by decide), hb2.met [] 5 [6] rfl, chain_nil]
      exact State.met_congr (hlow 5 (by decide)) _
    case formantHigh =>
      rw [hmid 6 (by decide), hb2.met [5] 6 [] rfl, chain_congr (bq' := s.bq) (by simp [hlow])]
      exact State.met_congr (hlow 6 (by decide)) _
    case toneLow =>
      rw [hb3.met [] 7 [8] rfl, chain_nil]
      exact State.met_congr (hhigh 7 (by decide)) _
    case toneHigh =>
      rw [hb3.met [7] 8 [] rfl, chain_congr (bq' := s.bq) (by simp [hhigh])]
      exact State.met_congr (hhigh 8 (by decide)) _
  · rw [hformant] at hf
    rw [htone] at hv
    rw [← clamp_clip_eq_clampTo]
    exact State.sample_of_stages he hf (State.shift_ok.2 ⟨ps, hps, rfl⟩) rfl hv (State.reverb_ok.2 ⟨cb, hcb, rfl⟩)
      (State.echo_ok.2 ⟨ec, hec, rfl⟩)

/-! ## A frame of one sample -/

theorem exec_frame_one {s t : State} {h q : Half} (hrun : s.run = .running) (hpend : s.pend = false)
    (hs : s.sample theParams h = .ok (t, q)) : exec (.frame 1#32 [h]) s =
      .next (t.withOut (s.out ++ [.level (level theParams [h] 1).bits, .played ⟨1#32, [q]⟩])) := by
  refine (exec_eq _ s).trans ((execFrameWith_next_iff hrun (by decide)).2 ⟨t, [q], ?_, rfl⟩)
  rw [State.latched_of_not_pend hpend]
  exact State.samples_cons_ok.2 ⟨t, q, [], hs, rfl, rfl⟩

/-- Settles O45: the stages of a sample, run by a frame of one sample. -/
theorem oneSampleGoesThroughTheStages : Obligations.OneSampleGoesThroughTheStages := by
  intro s h hi hrun hpend
  obtain ⟨hlive, -⟩ := hi.live hrun
  obtain ⟨ps, v3, hps, cb, v6, hcb, ec, v7, hec, bq, hbank, hsample⟩ := hlive.sample_stages h
  rw [pcmOut_eq] at hsample
  dsimp only
  rw [← pcmIn_eq h]
  exact ⟨ps, v3, hps, cb, v6, hcb, ec, v7, hec, _, exec_frame_one hrun hpend hsample, rfl, rfl, rfl, rfl,
    hbank.equaliser, hbank.formantLow, hbank.formantHigh, hbank.toneLow, hbank.toneHigh, rfl⟩

end Sys2Proof.Machine
end

section
/-! PROOFS. What the samples of a frame leave alone (spec/48_stream_processor.md R238): the coefficients, the sizes and
every word of a delay line that its write cursor does not pass; and what a failed read leaves alone. -/

namespace Sys2Proof.Machine

open Sys2Proof Sys2Proof.Claims NUM

/-! ## A delay line under its write cursor -/

/-- The write cursor of a delay line of `len` words goes from `w` to `w'` in `k` stores, and only the places it passes
are stored to. -/
structure LinePassed (len k w w' : Nat) (m m' : Memory) : Prop where
  cursor : w' = (w + k) % len
  reads : ∀ j, (∀ i, i < k → j ≠ (w + i) % len) → m'.read NUM.zero j = m.read NUM.zero j

theorem LinePassed.refl {len w : Nat} (hw : w < len) (m : Memory) : LinePassed len 0 w w m m :=
  ⟨(Nat.mod_eq_of_lt hw).symm, fun _ _ => rfl⟩

theorem LinePassed.store {len w : Nat} (hw : w < len) (m : Memory) (v : NUM) :
    LinePassed len 1 w (cursorNext len w) m (m.write NUM.zero w v) := by
  refine ⟨rfl, fun j hj => Memory.read_write_ne ?_ m⟩
  have hne := hj 0 Nat.one_pos
  rwa [Nat.add_zero, Nat.mod_eq_of_lt hw] at hne

theorem LinePassed.trans {len a b w w' w'' : Nat} {m m' m'' : Memory} (h : LinePassed len a w w' m m')
    (h' : LinePassed len b w' w'' m' m'') : LinePassed len (a + b) w w'' m m'' := by
  have hplace (i : Nat) : (w' + i) % len = (w + (a + i)) % len := by
    rw [h.cursor, Nat.mod_add_mod, Nat.add_assoc]
  refine ⟨h'.cursor.trans (hplace b), fun j hj => ?_⟩
  calc m''.read NUM.zero j = m'.read NUM.zero j := h'.reads j fun i hi => hplace i ▸ hj (a + i) (by omega)
    _ = m.read NUM.zero j := h.reads j fun i hi => hj i (by omega)

/-! ## The units under one sample -/

theorem Biquad.process_frame {F : Type} (N : Num F) (b : Biquad F) (x : F) :
    { (b.process N x).1 with z1 := b.z1, z2 := b.z2 } = b := rfl

theorem State.BankAfter.get {s : State} {x : Half} {v : NUM} {bq : Vector Biquad 9} (h : s.BankAfter x v bq)
    (u : Fin 9) : bq.get u = s.bq.get u ∨ ∃ y, bq.get u = s.met u y := by
  by_cases hu : u.val < 5
  · have heq := h.equaliser ⟨u.val, hu⟩
    split at heq
    · exact .inr ⟨_, heq⟩
    · exact .inl heq
  · have hcases : u = 5 ∨ u = 6 ∨ u = 7 ∨ u = 8 := by omega
    rcases hcases with rfl | rfl | rfl | rfl
    exacts [.inr ⟨_, h.formantLow⟩, .inr ⟨_, h.formantHigh⟩, .inr ⟨_, h.toneLow⟩, .inr ⟨_, h.toneHigh⟩]

theorem State.BankAfter.coefficients {s : State} {x : Half} {v : NUM} {bq : Vector Biquad 9} (h : s.BankAfter x v bq)
    (u : Fin 9) : { bq.get u with z1 := (s.bq.get u).z1, z2 := (s.bq.get u).z2 } = s.bq.get u := by
  rcases h.get u with hu | ⟨y, hu⟩
  · rw [hu]
  · rw [hu]
    exact Biquad.process_frame ..

/-- R175: dry combs stay; wet ones step. -/
theorem reverbProcess_stepped {cb cb' : Vector Comb 3} (hcur : ∀ k : Fin 3, (cb.get k).cur < (cb.get k).len)
    {x wet y : NUM} (h : reverbProcess theParams cb x wet = .ok (cb', y)) :
    cb' = if wet.le NUM.zero then cb else cb.map (Comb.stepped Num.binary32 · x) := by
  split
  next hdry =>
    rw [reverbProcess_dry hdry] at h
    cases h
    rfl
  next hwet =>
    rw [reverbProcess_wet (Bool.eq_false_of_not_eq_true hwet) (combsStepped_eq_map hcur x)] at h
    cases h
    rfl

/-! ## The state under `k` samples -/

/-- What `k` samples leave alone of the state `s` in arriving at `t`. -/
structure StreamFrame (k : Nat) (s t : State) : Prop where
  rest : t = { s with bq := t.bq, ps := t.ps, vm := t.vm, cb := t.cb, ec := t.ec }
  modulator : t.vm.sr = s.vm.sr ∧ t.vm.init = s.vm.init
  coefficients : ∀ u : Fin 9, { t.bq.get u with z1 := (s.bq.get u).z1, z2 := (s.bq.get u).z2 } = s.bq.get u
  equaliser : s.act.eqOn = false → ∀ j : Fin 5, t.bq.get (j.castLE (by omega)) = s.bq.get (j.castLE (by omega))
  shifter : { t.ps with w := s.ps.w, r := s.ps.r, buf := s.ps.buf } = s.ps
  shifterLine : LinePassed s.ps.size k s.ps.w t.ps.w s.ps.buf t.ps.buf
  echo : { t.ec with cur := s.ec.cur, buf := s.ec.buf } = s.ec
  echoLine : LinePassed s.ec.len k s.ec.cur t.ec.cur s.ec.buf t.ec.buf
  dry : s.act.wet.le NUM.zero = true → t.cb = s.cb
  comb : ∀ j : Fin 3, { t.cb.get j with cur := (s.cb.get j).cur, buf := (s.cb.get j).buf } = s.cb.get j
  combLine : s.act.wet.le NUM.zero = false → ∀ j : Fin 3,
    LinePassed (s.cb.get j).len k (s.cb.get j).cur (t.cb.get j).cur (s.cb.get j).buf (t.cb.get j).buf

theorem Live.streamFrame_refl {s : State} (h : Live s) : StreamFrame 0 s s where
  rest := rfl
  modulator := ⟨rfl, rfl⟩
  coefficients _ := rfl
  equaliser _ _ := rfl
  shifter := rfl
  shifterLine := .refl (h.good.ps.write_lt h.ready.ps) _
  echo := rfl
  echoLine := .refl (h.good.ec.cursor_lt h.ready.ec) _
  dry _ := rfl
  comb _ := rfl
  combLine _ j := .refl ((h.good.cb j).cursor_lt (h.ready.cb j)) _

theorem Live.streamFrame_sample {s t : State} (h : Live s) {x q : Half} (hs : s.sample theParams x = .ok (t, q)) :
    StreamFrame 1 s t := by
  have hcur (k : Fin 3) : (s.cb.get k).cur < (s.cb.get k).len := (h.good.cb k).cursor_lt (h.ready.cb k)
  have hec := h.good.ec.cursor_lt h.ready.ec
  obtain ⟨ps, v3, hps, cb, v6, hcb, ec, v7, hec', bq, hbank, hsample⟩ := h.sample_stages x
  cases hsample.symm.trans hs
  obtain ⟨hw, r, rfl⟩ := PitchShifter.process_ok hps
  cases (Echo.process_eq_stepped hec v6).symm.trans hec'
  have hcb := reverbProcess_stepped hcur hcb
  exact {
    rest := rfl
    modulator := VoiceModulator.process_frame ..
    coefficients := hbank.coefficients
    equaliser := fun hoff j => (hbank.equaliser j).trans (if_neg (by rw [hoff]; exact Bool.false_ne_true))
    shifter := rfl
    shifterLine := .store hw ..
    echo := rfl
    echoLine := .store hec ..
    dry := fun hdry => hcb.trans (if_pos hdry)
    comb := by
      intro j
      dsimp only
      rw [hcb]
      split
      · rfl
      · rw [Vector.get_map]
        rfl
    combLine := by
      intro hwet j
      dsimp only
      rw [hcb, hwet, if_neg Bool.false_ne_true, Vector.get_map]
      exact .store (hcur j) .. }

theorem StreamFrame.trans {a b : Nat} {s t u : State} (h : StreamFrame a s t) (h' : StreamFrame b t u) :
    StreamFrame (a + b) s u := by
  have hact : t.act = s.act := by rw [h.rest]
  have hsize : t.ps.size = s.ps.size := (congrArg PitchShifter.size h.shifter :)
  have hecho : t.ec.len = s.ec.len := (congrArg Echo.len h.echo :)
  have hcomb (j : Fin 3) : (t.cb.get j).len = (s.cb.get j).len := (congrArg Comb.len (h.comb j) :)
  exact {
    rest := by rw [h'.rest, h.rest]
    modulator := ⟨h'.modulator.1.trans h.modulator.1, h'.modulator.2.trans h.modulator.2⟩
    coefficients := fun j => (congrArg (fun f : Biquad => { f with z1 := (s.bq.get j).z1, z2 := (s.bq.get j).z2 })
      (h'.coefficients j)).trans (h.coefficients j)
    equaliser := fun hoff j => (h'.equaliser (hact ▸ hoff) j).trans (h.equaliser hoff j)
    shifter := (congrArg (fun f : PitchShifter => { f with w := s.ps.w, r := s.ps.r, buf := s.ps.buf })
      h'.shifter).trans h.shifter
    shifterLine := h.shifterLine.trans (hsize ▸ h'.shifterLine)
    echo := (congrArg (fun f : Echo => { f with cur := s.ec.cur, buf := s.ec.buf }) h'.echo).trans h.echo
    echoLine := h.echoLine.trans (hecho ▸ h'.echoLine)
    dry := fun hdry => (h'.dry (hact ▸ hdry)).trans (h.dry hdry)
    comb := fun j => (congrArg (fun f : Comb => { f with cur := (s.cb.get j).cur, buf := (s.cb.get j).buf })
      (h'.comb j)).trans (h.comb j)
    combLine := fun hwet j => (h.combLine hwet j).trans (hcomb j ▸ h'.combLine (hact ▸ hwet) j) }

theorem Live.streamFrame_samples {xs : List Half} : ∀ {s t : State} {qs : List Half}, Live s →
    s.samples theParams xs = .ok (t, qs) → StreamFrame xs.length s t ∧ qs.length = xs.length := by
  induction xs with
  | nil =>
    intro s t qs h hs
    cases hs
    exact ⟨h.streamFrame_refl, rfl⟩
  | cons x xs ih =>
    intro s t qs h hs
    obtain ⟨u, q, qs, hsample, hrest, rfl⟩ := State.samples_cons_ok.1 hs
    obtain ⟨hframe, hlength⟩ := ih (h.sample hsample) hrest
    refine ⟨?_, congrArg (· + 1) hlength⟩
    rw [List.length_cons, Nat.add_comm]
    exact (h.streamFrame_sample hsample).trans hframe

/-! ## The frame -/

/-- R238, R240: the latch leaves what DERIVE does not write. -/
theorem State.latched_rest (p : Params NUM) (s : State) :
    s.latched p = { s with
      pend := false, act := (s.latched p).act, bq := (s.latched p).bq, ec := (s.latched p).ec,
      pc := (s.latched p).pc } := by
  obtain ⟨-, -, hpend⟩ := s.latched_control p
  unfold State.latched at hpend ⊢
  split at hpend
  next h => rw [if_pos h]; rfl
  next h => rw [if_neg h, ← hpend]

/-- Settles O46: what the samples leave alone, counted over the samples of the frame. -/
theorem frameCompletesAndItsFrame : Obligations.FrameCompletesAndItsFrame := by
  intro s n ss hi hrun hn hlength
  obtain ⟨hlive, -⟩ := hi.latched hrun
  obtain ⟨u, qs, hsamples⟩ := hlive.samples_answers (xs := ss)
  obtain ⟨hframe, hcount⟩ := hlive.streamFrame_samples hsamples
  have hexec := (exec_eq (.frame n ss) s).trans ((execFrameWith_next_iff hrun hn).2 ⟨u, qs, hsamples, rfl⟩)
  have hrest : u = { s with
      pend := false, act := (s.latched theParams).act, bq := u.bq, ps := u.ps, cb := u.cb, ec := u.ec,
      pc := (s.latched theParams).pc, vm := u.vm } := by
    rw [hframe.rest, s.latched_rest theParams]
  refine ⟨_, qs, hexec, hcount, rfl, ?_⟩
  rw [hrest]
  refine ⟨hrun, rfl, rfl, rfl, rfl, rfl, rfl, rfl, rfl, fun hpend => ?_⟩
  rw [State.latched_of_not_pend hpend] at hframe ⊢
  refine ⟨rfl, rfl, hframe.modulator.1, hframe.modulator.2,
    hframe.coefficients, hframe.equaliser, hframe.shifter, hframe.shifterLine.cursor, hframe.shifterLine.reads,
    hframe.echo, hframe.echoLine.cursor, hframe.echoLine.reads, hframe.dry, fun k => ⟨hframe.comb k, fun j hj => ?_⟩⟩
  cases hwet : s.act.wet.le NUM.zero with
  | true => exact congrArg (fun cb : Vector Comb 3 => (cb.get k).buf.read NUM.zero j) (hframe.dry hwet)
  | false => exact (hframe.combLine hwet k).reads j hj

/-! ## A failed read -/

/-- R238: a count of at most 0 runs the latch and nothing else. -/
theorem exec_frame_failed {n : Word} {ss : List Half} {s : State} (hrun : s.run = .running) (hn : n.toInt ≤ 0) :
    exec (.frame n ss) s = .next (s.latched theParams) := by
  have hcount : i32 n ≤ 0 := hn
  refine (exec_eq (.frame n ss) s).trans ?_
  show execFrameWith theParams n ss s = _
  rw [execFrameWith, if_pos hrun]
  exact if_pos hcount

theorem Echo.configured_init (ec : Echo) (delay : Int) (mix fb : NUM) :
    (ec.configured theParams delay mix fb).init = ec.init := by
  rw [Echo.configured_theParams]
  split <;> rfl

/-- Settles O44: all that runs is the latch. -/
theorem failedReadOnlyLatches : Obligations.FailedReadOnlyLatches := by
  intro s n ss hrun hn
  rw [exec_frame_failed hrun hn]
  refine ⟨fun hpend => by rw [State.latched_of_not_pend hpend], fun hpend => ⟨_, rfl, ?_⟩⟩
  rw [State.latched_of_pend hpend]
  exact ⟨rfl, rfl, rfl, rfl, rfl, rfl, rfl, rfl, rfl, rfl, rfl, rfl, rfl, rfl, derivedBank_atRest _ _ _, rfl, rfl,
    Echo.configured_init .., Echo.configured_contents ..⟩

end Sys2Proof.Machine
end

section
/-! PROOFS. Refusals (spec/60_exceptions.md R262, R267, R268): the checks a command makes, in their order, and what it
can answer once they pass. -/

namespace Sys2Proof.Machine

open Sys2Proof Sys2Proof.Claims NUM

/-! ## The checks of a command -/

/-- The checks of every command in the order of R267. -/
def checksOf (s : State) : Instr → List (Bool × Status)
  | .start _ _ | .vpLoad _ => [stoppedCheck s]
  | .stop | .frame _ _ => []
  | .apply a => [(a.wf, .errIllegal)]
  | .bqByp u => biquadSetChecks s u []
  | .bqPeak u f g q _ => biquadSetChecks s u [f, g, q]
  | .bqLsh u f g _ | .bqHsh u f g _ => biquadSetChecks s u [f, g]
  | .bqProc u x =>
    [finiteCheck [x], stoppedCheck s, rangeCheck (decide (u.toNat < 9)), initCheck (s.bq.get (biquadIndex u)).init]
  | .psInit sr | .rvInit sr | .vmInit sr => [stoppedCheck s, rangeCheck (decide (0 < i32 sr))]
  | .psProc x r => [finiteCheck [x, r], stoppedCheck s, initCheck s.ps.init]
  | .cbInit u len fb =>
    [finiteCheck [fb], stoppedCheck s, rangeCheck (decide (u.toNat < 3) && decide (0 < i32 len))]
  | .cbProc u x =>
    [finiteCheck [x], stoppedCheck s, rangeCheck (decide (u.toNat < 3)), initCheck (s.cb.get (combIndex u)).init]
  | .rvProc x w => [finiteCheck [x, w], stoppedCheck s, initCheck (combsInit s.cb)]
  | .ecInit len => [stoppedCheck s, rangeCheck (decide (0 < i32 len))]
  | .ecCfg _ m f => [finiteCheck [m, f], stoppedCheck s, initCheck s.ec.init]
  | .ecProc x => [finiteCheck [x], stoppedCheck s, initCheck s.ec.init]
  | .vmProc x => [finiteCheck [x], stoppedCheck s, initCheck (s.vm.init && s.pc.init)]
  | .lmFrame ss => [stoppedCheck s, rangeCheck (decide (0 < ss.length))]

section

variable {c : Bool} {e : Status} {rest : List (Bool × Status)} {o : Option Status}

theorem firstFailing_cons_of_iff {P : Prop} [Decidable P] (hc : c = true ↔ ¬P) (hrest : firstFailing rest = o) :
    firstFailing ((c, e) :: rest) = if P then some e else o := by
  rw [firstFailing_cons, hrest]
  simp only [hc, ite_not]

theorem firstFailing_stoppedCheck {s : State} (hrest : firstFailing rest = o) :
    firstFailing (stoppedCheck s :: rest) = if s.run ≠ .stopped then some .errState else o :=
  firstFailing_cons_of_iff (by simp) hrest

/-- The range check of a unit number and the check of that unit, which needs the number to be in range. -/
theorem firstFailing_unitChecks {u n : Nat} {init : u < n → Bool} (h : ∀ hu, c = init hu) :
    firstFailing [rangeCheck (decide (u < n)), initCheck c] =
      if hu : u < n then (if init hu then none else some .errUninit) else some .errRange := by
  by_cases hu : u < n
  · simp [rangeCheck, initCheck, hu, ← h hu]
  · simp [rangeCheck, hu]

end

theorem combsInit_iff (cb : Vector Comb 3) :
    combsInit cb = true ↔ cb[0].init = true ∧ cb[1].init = true ∧ cb[2].init = true :=
  all_iff_get.trans ⟨fun h => ⟨h 0, h 1, h 2⟩, fun ⟨h0, h1, h2⟩ k => match k with
    | 0 => h0
    | 1 => h1
    | 2 => h2⟩

/-- R267, R268: the first check that fails is the one the table's row names. -/
theorem firstFailing_checksOf (s : State) (i : Instr) : firstFailing (checksOf s i) = refusalOf s i := by
  have hrange {u : BitVec 8} : decide (u.toNat < 9) = true ↔ ¬8 < u.toNat := by simp; omega
  have hpositive {n : Word} : decide (0 < i32 n) = true ↔ ¬n.toInt ≤ 0 := decide_eq_true_iff.trans not_le.symm
  cases i with
  | start | vpLoad => exact firstFailing_stoppedCheck rfl
  | stop | frame => rfl
  | apply a => rfl
  | bqByp u => exact firstFailing_stoppedCheck (firstFailing_cons_of_iff hrange rfl)
  | bqPeak | bqLsh | bqHsh =>
    exact firstFailing_cons_of_iff (by simp) (firstFailing_stoppedCheck (firstFailing_cons_of_iff hrange rfl))
  | bqProc u x =>
    refine firstFailing_cons_of_iff (by simp) (firstFailing_stoppedCheck (firstFailing_unitChecks fun hu => ?_))
    rw [biquadIndex_of_lt hu]
    rfl
  | cbProc u x =>
    refine firstFailing_cons_of_iff (by simp) (firstFailing_stoppedCheck (firstFailing_unitChecks fun hu => ?_))
    rw [combIndex_of_lt hu]
    rfl
  | psInit | rvInit | vmInit | ecInit => exact firstFailing_stoppedCheck (firstFailing_cons_of_iff hpositive rfl)
  | psProc | ecCfg | ecProc =>
    exact firstFailing_cons_of_iff (by simp) (firstFailing_stoppedCheck (firstFailing_cons_of_iff (by simp) rfl))
  | cbInit u len fb =>
    refine firstFailing_cons_of_iff (by simp) (firstFailing_stoppedCheck (firstFailing_cons_of_iff ?_ rfl))
    rw [Bool.and_eq_true, hpositive, decide_eq_true_iff]
    omega
  | rvProc =>
    exact firstFailing_cons_of_iff (by simp) (firstFailing_stoppedCheck (firstFailing_cons_of_iff
      ((combsInit_iff _).trans not_not.symm) rfl))
  | vmProc =>
    exact firstFailing_cons_of_iff (by simp) (firstFailing_stoppedCheck (firstFailing_cons_of_iff
      ((Bool.and_eq_true_iff ..).trans not_not.symm) rfl))
  | lmFrame ss =>
    exact firstFailing_stoppedCheck (firstFailing_cons_of_iff (by simp [List.length_pos_iff]) rfl)

/-! ## What a command can answer -/

/-- The ports of the block and the arbitration between them are alike. -/
structure SamePorts (s t : State) : Prop where
  ctrl : t.ctrl = s.ctrl
  cap : t.cap = s.cap
  pick : t.pick = s.pick
  ahead : t.ahead = s.ahead
  late : t.late = s.late

/-- What a command comes to that is not refused: OK over a state with the same ports and nothing emitted, or FAIL over
the state as it was. -/
inductive Completed (s : State) : State → Prop
  | ok (u : State) (v : Word) (hports : SamePorts s u) (hout : u.out = s.out) : Completed s (u.respond .ok v)
  | fail : Completed s (s.respond .fail 0#32)

theorem Completed.of_complete {s u t : State} (hports : SamePorts s u) (hout : u.out = s.out)
    (h : complete u = .next t) : Completed s t := by
  rw [complete_next.1 h]
  exact .ok u 0#32 hports hout

theorem Completed.of_completeValue {N : Num NUM} {r : Except Fault (State × NUM)} {s t : State}
    (hr : ∀ u y, r = .ok (u, y) → SamePorts s u ∧ u.out = s.out) (h : completeValue N r = .next t) :
    Completed s t := by
  obtain ⟨u, y, hu, rfl⟩ := completeValue_next.1 h
  obtain ⟨hports, hout⟩ := hr u y hu
  exact .ok u _ hports hout

/-- R186: at the spec's parameters EC.INIT has no greatest length. -/
theorem execEcInitWith_theParams (len : Word) (s : State) : execEcInitWith theParams len s =
    s.guarded [stoppedCheck s, rangeCheck (decide (0 < i32 len))]
      (complete { s with ec := Echo.created Num.binary32 (i32 len).toNat }) :=
  congrArg (fun b => s.guarded [stoppedCheck s, rangeCheck b] _) (Bool.and_true _)

/-- R262, R267: every command makes its checks and then completes. -/
theorem execWith_guarded {i : Instr} (hi : isCommand i = true) (s : State) :
    ∃ act, execWith theParams i s = s.guarded (checksOf s i) act ∧ ∀ t, act = .next t → Completed s t := by
  have hvalue {N : Num NUM} {u : State} {y : NUM} (hports : SamePorts s u) (hout : u.out = s.out) (t : State) :
      completeValue N (.ok (u, y)) = .next t → Completed s t :=
    .of_completeValue fun _ _ h => by
      cases h
      exact ⟨hports, hout⟩
  cases i with
  | frame n ss => cases hi
  | start ok sr =>
    refine ⟨_, rfl, fun t h => ?_⟩
    split at h
    · cases h
      exact .ok (s.started theParams sr.toInt) 1#32 ⟨rfl, rfl, rfl, rfl, rfl⟩ rfl
    · cases h
      exact .fail
  | stop | apply _ | bqByp _ | bqPeak _ _ _ _ _ | bqLsh _ _ _ _ | bqHsh _ _ _ _ | psInit _ | cbInit _ _ _ | rvInit _
  | ecCfg _ _ _ | vpLoad _ | vmInit _ => exact ⟨_, rfl, fun _ => .of_complete ⟨rfl, rfl, rfl, rfl, rfl⟩ rfl⟩
  | ecInit len =>
    exact ⟨_, execEcInitWith_theParams len s, fun _ => .of_complete ⟨rfl, rfl, rfl, rfl, rfl⟩ rfl⟩
  | bqProc _ _ | vmProc _ | lmFrame _ => exact ⟨_, rfl, hvalue ⟨rfl, rfl, rfl, rfl, rfl⟩ rfl⟩
  | psProc _ _ =>
    refine ⟨_, rfl, fun _ => .of_completeValue fun u y h => ?_⟩
    obtain ⟨_, -, rfl⟩ := State.shift_ok.1 h
    exact ⟨⟨rfl, rfl, rfl, rfl, rfl⟩, rfl⟩
  | cbProc _ _ =>
    refine ⟨_, rfl, fun _ => .of_completeValue fun u y h => ?_⟩
    obtain ⟨_, -, rfl⟩ := State.comb_ok.1 h
    exact ⟨⟨rfl, rfl, rfl, rfl, rfl⟩, rfl⟩
  | rvProc _ _ =>
    refine ⟨_, rfl, fun _ => .of_completeValue fun u y h => ?_⟩
    obtain ⟨_, -, rfl⟩ := State.reverb_ok.1 h
    exact ⟨⟨rfl, rfl, rfl, rfl, rfl⟩, rfl⟩
  | ecProc _ =>
    refine ⟨_, rfl, fun _ => .of_completeValue fun u y h => ?_⟩
    obtain ⟨_, -, rfl⟩ := State.echo_ok.1 h
    exact ⟨⟨rfl, rfl, rfl, rfl, rfl⟩, rfl⟩

theorem refuse_eq_answered (s : State) (e : Status) : s.refuse e = answered s (codeWord e) 0#32 := by
  cases e <;> rfl

/-- R262, R268: a command is refused as the table says, or it completes. -/
theorem exec_command_next {i : Instr} {s t : State} (hi : isCommand i = true) (h : exec i s = .next t) :
    (∃ e, refusalOf s i = some e ∧ t = answered s (codeWord e) 0#32) ∨ (refusalOf s i = none ∧ Completed s t) := by
  obtain ⟨act, hexec, hact⟩ := execWith_guarded hi s
  rw [exec_eq, hexec] at h
  rcases State.guarded_next h with ⟨e, he, rfl⟩ | ⟨hpass, hnext⟩
  · exact .inl ⟨e, (firstFailing_checksOf s i).symm.trans he, refuse_eq_answered s e⟩
  · exact .inr ⟨(firstFailing_checksOf s i).symm.trans hpass, hact t hnext⟩

/-! ## The table -/

/-- A completion answers OK or FAIL. -/
theorem Completed.status {s t : State} (h : Completed s t) {st v : Word}
    (hout : t.out = s.out ++ [.response st v]) : st = 0x00000000#32 ∨ st = 0x01000000#32 := by
  cases h with
  | ok u w hports hu =>
    rw [State.respond_out, hu] at hout
    cases List.append_cancel_left hout
    exact .inl rfl
  | fail =>
    rw [State.respond_out] at hout
    cases List.append_cancel_left hout
    exact .inr rfl

/-- R94: FRAME answers no response. -/
theorem exec_frame_no_response {n : Word} {ss : List Half} {s t : State} {st v : Word}
    (h : exec (.frame n ss) s = .next t) : t.out ≠ s.out ++ [.response st v] := by
  intro hout
  rcases execFrameWith_out ((exec_eq (.frame n ss) s).symm.trans h) with hout' | ⟨lv, f, hout'⟩
  · exact absurd (hout'.symm.trans hout) (by simp)
  · exact absurd (hout'.symm.trans hout) (by simp)

/-- Settles O12: the checks of a command are its row of the table, and what passes them completes. -/
theorem refusalsFollowTheTable : Obligations.RefusalsFollowTheTable := by
  intro i s
  constructor
  · intro e he
    have hi : isCommand i = true := by
      cases i with
      | frame n ss => cases he
      | _ => rfl
    obtain ⟨act, hexec, -⟩ := execWith_guarded hi s
    rw [exec_eq, hexec, State.guarded_refuse ((firstFailing_checksOf s i).trans he), refuse_eq_answered]
  · intro t st v hnone h hout
    cases hi : isCommand i with
    | false =>
      cases i with
      | frame n ss => exact absurd hout (exec_frame_no_response h)
      | _ => cases hi
    | true =>
      rcases exec_command_next hi h with ⟨e, he, -⟩ | ⟨-, hcompleted⟩
      · cases hnone.symm.trans he
      · exact hcompleted.status hout

/-- Settles O13: of the two things a command can come to, only a refusal answers a refusal's status. -/
theorem refusedCommandChangesNothing : Obligations.RefusedCommandChangesNothing := by
  intro i s t st v h hout hst
  cases hi : isCommand i with
  | false =>
    cases i with
    | frame n ss => exact absurd hout (exec_frame_no_response h)
    | _ => cases hi
  | true =>
    rcases exec_command_next hi h with ⟨e, -, rfl⟩ | ⟨-, hcompleted⟩
    · cases List.append_cancel_left hout
      exact ⟨rfl, rfl⟩
    · rcases hcompleted.status hout with rfl | rfl <;> exact absurd hst (by decide)

end Sys2Proof.Machine
end

section
/-! PROOFS. The control context and the worker (spec/48_stream_processor.md R244, R246, R247): what the step of either
leaves, and how long a frame waits for the commands that are offered on. -/

namespace Sys2Proof.Machine

open Sys2Proof Sys2Proof.Claims NUM

/-! ## The control context's step -/

theorem isCommand_of_decode {ws : List Word} {i : Instr} {rest : List Word} (h : decode ws = .command i rest) :
    isCommand i = true := by
  obtain ⟨-, cmd, hencode, -⟩ := decodedWordsAreTheEncoding ws i rest h
  cases i with
  | frame n ss => cases hencode
  | _ => rfl

theorem exec_samePorts {i : Instr} {s t : State} (hi : isCommand i = true) (h : exec i s = .next t) :
    SamePorts s t := by
  rcases exec_command_next hi h with ⟨e, -, rfl⟩ | ⟨-, hcompleted⟩
  · exact ⟨rfl, rfl, rfl, rfl, rfl⟩
  · cases hcompleted with
    | ok u v hports hout => exact ⟨hports.ctrl, hports.cap, hports.pick, hports.ahead, hports.late⟩
    | fail => exact ⟨rfl, rfl, rfl, rfl, rfl⟩

theorem commandOutcome_eq (s : State) : commandOutcome s = s.controlStep exec := by
  unfold commandOutcome State.controlStep
  cases decode s.ctrl with
  | command i rest => rfl
  | illegal e rest => exact congrArg Host.Outcome.next (refuse_eq_answered (s.tookCommand rest) .errIllegal).symm
  | incomplete => rfl

/-- What a step of the control context leaves: the frames on CAP, the free number and the count of commands that have
gone ahead, and no mark of a STOP that was not there. -/
structure ControlFrame (s t : State) : Prop where
  cap : t.cap = s.cap
  pick : t.pick = s.pick
  ahead : t.ahead = s.ahead
  late : s.late = 0 → t.late = 0
  out : t.out = s.out ∨ ∃ st v, t.out = s.out ++ [.response st v]
  run : t.run = s.run ∨ s.run = .stopped ∨ t.run = .stopped

theorem controlStep_frame {s t : State} (h : s.controlStep exec = .next t) : ControlFrame s t := by
  unfold State.controlStep at h
  split at h
  case h_1 i rest hdecode =>
    have hi := isCommand_of_decode hdecode
    obtain ⟨-, hcap, hpick, hahead, hlate⟩ := exec_samePorts hi h
    obtain ⟨-, -, hrun⟩ := onlyStartAndStopChangeTheRunState
    obtain ⟨st, v, hout⟩ := execWith_answersOnce hi ((exec_eq i _).symm.trans h)
    refine ⟨hcap, hpick, hahead, fun h0 => hlate.trans (State.tookCommand_late_zero h0 rest), .inr ⟨_, v, hout⟩, ?_⟩
    by_cases hne : t.run = s.run
    · exact .inl hne
    · rcases hrun _ theParams i _ t ((exec_eq i _).symm.trans h) hne with ⟨-, -, -, hstopped, -⟩ | ⟨-, hstopped⟩
      · exact .inr (.inl hstopped)
      · exact .inr (.inr hstopped)
  case h_2 rest hdecode =>
    cases h
    exact ⟨rfl, rfl, rfl, fun h0 => State.tookCommand_late_zero h0 rest, .inr ⟨_, _, rfl⟩, .inl rfl⟩
  case h_3 =>
    cases h
    exact ⟨rfl, rfl, rfl, id, .inl rfl, .inl rfl⟩

/-! ## While not Running -/

theorem State.frameReady_of_not_running {s : State} (hrun : s.run ≠ .running) : s.frameReady = false := by
  simp [State.frameReady, hrun]

theorem step_of_turn_idle {s : State} (h : s.turn = .idle) : step s = .next s := by
  unfold step State.stepBy
  rw [h]

theorem exec_frame_not_running {n : Word} {ss : List Half} {s : State} (hrun : s.run ≠ .running) :
    exec (.frame n ss) s = .next s :=
  (exec_eq (.frame n ss) s).trans (if_neg hrun)

/-- Settles O11: no frame is ready, so it is the control context's turn or nobody's. -/
theorem framesWaitWhileNotRunning : Obligations.FramesWaitWhileNotRunning := by
  refine ⟨fun s hrun hcommand => ?_, fun s t hrun h => ?_, fun n ss s => exec_frame_not_running⟩
  · exact step_of_turn_idle (State.turn_idle hcommand (State.frameReady_of_not_running hrun))
  · have hframe := State.frameReady_of_not_running hrun
    cases hcommand : s.commandReady with
    | false =>
      cases (step_of_turn_idle (State.turn_idle hcommand hframe)).symm.trans h
      exact ⟨rfl, .inl rfl⟩
    | true =>
      have hstep := (step_of_turn_control (State.turn_control hcommand hframe)).symm.trans h
      obtain ⟨hcap, -, -, -, hout, -⟩ := controlStep_frame hstep
      exact ⟨hcap, hout⟩

/-! ## The worker's step -/

theorem step_frame_of_turn {s : State} {f : Frame} {frest : List Frame} (hrun : s.run = .running)
    (hcap : s.cap = f :: frest) (hwf : f.wf = true) (hturn : s.turn = .worker s) :
    step s = exec (.frame f.count f.samples) (frameTaken s frest) :=
  (step_of_turn_worker hturn).trans (State.workerStep_frame hrun hcap (decodeFrame_of_wf hwf))

theorem State.latched_cap (s : State) : (s.latched theParams).cap = s.cap :=
  (congrArg State.cap (s.latched_rest theParams) :)

/-- A well-formed frame of a good state of a running stream is run, and the frames behind it stay on CAP. -/
theorem exec_frame_cap {s : State} {f : Frame} (h : s.Inv) (hrun : s.run = .running) (hwf : f.wf = true) :
    ∃ t, exec (.frame f.count f.samples) s = .next t ∧ t.cap = s.cap := by
  rcases le_or_gt f.count.toInt 0 with hfailed | hcount
  · exact ⟨_, exec_frame_failed hrun hfailed, s.latched_cap⟩
  · have hlength : f.samples.length = f.count.toInt.toNat := eq_of_beq hwf
    obtain ⟨t, q, hexec, -, -, -, -, -, -, -, hcap, -⟩ :=
      frameCompletesAndItsFrame s f.count f.samples h hrun hcount hlength
    exact ⟨t, hexec, hcap⟩

/-! ## Both ports ready -/

theorem step_of_both {s : State} {f : Frame} {frest : List Frame} (hcommand : s.commandReady = true)
    (hrun : s.run = .running) (hcap : s.cap = f :: frest) (hwf : f.wf = true) :
    step s = if s.workerGoes then exec (.frame f.count f.samples) (frameTaken s frest)
      else commandOutcome { s with ahead := s.ahead + 1 } := by
  have hturn := State.turn_both hcommand (State.frameReady_of_running hrun hcap)
  split
  next hgoes => exact step_frame_of_turn hrun hcap hwf (hturn.trans (if_pos hgoes))
  next hwaits => exact (step_of_turn_control (hturn.trans (if_neg hwaits))).trans (commandOutcome_eq _).symm

/-- A step with a frame at the head of CAP and no STOP gone past takes the frame, or lets one of the commands go that
may go first. -/
theorem step_frame_or_command {s : State} {f : Frame} {frest : List Frame} (h : s.Inv) (hrun : s.run = .running)
    (hlate : s.late = 0) (hcap : s.cap = f :: frest) (hwf : f.wf = true) : ∃ t, step s = .next t ∧
      (t.cap = frest ∨
        (s.ahead < Config.commandsFirst s.pick ∧ t.Inv ∧ ControlFrame { s with ahead := s.ahead + 1 } t)) := by
  obtain ⟨t, hframe, htaken⟩ := exec_frame_cap (s := frameTaken s frest) h hrun hwf
  cases hcommand : s.commandReady with
  | false =>
    have hturn := State.turn_worker hcommand (State.frameReady_of_running hrun hcap)
    exact ⟨t, (step_frame_of_turn hrun hcap hwf hturn).trans hframe, .inl htaken⟩
  | true =>
    have hstep := step_of_both hcommand hrun hcap hwf
    split at hstep
    case isTrue => exact ⟨t, hstep.trans hframe, .inl htaken⟩
    case isFalse hwaits =>
      obtain ⟨u, hu⟩ := State.Inv.controlStep_answers (s := { s with ahead := s.ahead + 1 }) h
      rw [State.workerGoes_iff] at hwaits
      exact ⟨u, hstep.trans ((commandOutcome_eq _).trans hu),
        .inr ⟨not_le.1 fun hle => hwaits ⟨.inl hlate, hle⟩, controlStep_inv (s := { s with ahead := s.ahead + 1 }) h hu,
          controlStep_frame hu⟩⟩

theorem offeredRun_cons {ws : List Word} {more : List (List Word)} {s t : State}
    (h : step { s with ctrl := s.ctrl ++ ws } = .next t) : offeredRun (ws :: more) s = offeredRun more t := by
  rw [offeredRun, h]

/-- R247: each command that goes first is one of the free number, so the frame is taken within that number of steps and
one. -/
theorem frame_taken_in_bound (offers : List (List Word)) : ∀ {s : State} {f : Frame} {frest : List Frame}, s.Inv →
    s.run = .running → s.late = 0 → s.cap = f :: frest → f.wf = true →
    Config.commandsFirst s.pick - s.ahead < offers.length →
    ∃ k t, k ≤ offers.length ∧ offeredRun (offers.take k) s = .next t ∧ (t.cap = frest ∨ t.run = .stopped) := by
  induction offers with
  | nil => exact fun _ _ _ _ _ hbound => absurd hbound (Nat.not_lt_zero _)
  | cons ws more ih =>
    intro s f frest h hrun hlate hcap hwf hbound
    obtain ⟨t, hstep, htaken | ⟨hahead, hinv, hcontrol⟩⟩ :=
      step_frame_or_command (s := { s with ctrl := s.ctrl ++ ws }) h hrun hlate hcap hwf
    · exact ⟨1, t, by simp, offeredRun_cons hstep, .inl htaken⟩
    · rcases hcontrol.run with hkept | hstopped | hstopped
      · have hrest : Config.commandsFirst t.pick - t.ahead < more.length := by
          rw [hcontrol.pick, hcontrol.ahead]
          simp only [List.length_cons] at hbound hahead ⊢
          omega
        obtain ⟨k, u, hk, hoffered, hu⟩ :=
          ih hinv (hkept.trans hrun) (hcontrol.late hlate) (hcontrol.cap.trans hcap) hwf hrest
        exact ⟨k + 1, u, Nat.succ_le_succ hk, (offeredRun_cons hstep).trans hoffered, hu⟩
      · cases hrun.symm.trans hstopped
      · exact ⟨1, t, by simp, offeredRun_cons hstep, .inr hstopped⟩

/-- Settles O10: the worker goes or the control context does; the free number of commands that go first counts down. -/
theorem eitherAgentMayGoFirst : Obligations.EitherAgentMayGoFirst := by
  constructor
  · intro s f frest hcommand hrun hcap hwf
    have hstep := step_of_both hcommand hrun hcap hwf
    have hgoes := s.workerGoes_iff
    dsimp only
    refine ⟨?_, fun hlate hstops => ?_, fun hpast hcount => hstep.trans (if_pos (hgoes.2 ⟨hpast, hcount⟩))⟩
    · split at hstep
      · exact .inr hstep
      · exact .inl hstep
    · exact hstep.trans (if_neg fun hw => (hgoes.1 hw).1.elim hlate hstops)
  · exact fun s f frest offers => frame_taken_in_bound offers

end Sys2Proof.Machine
end
